-- ==== Sys2Proof/Word.lean ====
section
/-! DEFINITION. The two word sizes of the machine (00_scope.md R13). -/

namespace Sys2Proof

/-- An 8-bit value: a register, a memory byte, an operand byte (DATA_WIDTH, R10). -/
abbrev Byte := BitVec 8

/-- A 16-bit value: PC, an address (ADDR_WIDTH, R10). -/
abbrev Word := BitVec 16

end Sys2Proof
end

