-- ==== Sys2Proof/Syntax.lean ====
section
/-! DEFINITION. The syntax of the machine's instructions: one constructor of `Instr` for each of the 256 rows of
spec/opcode_table.json (30_encoding.md R114, R116), with the operand of the row's format (R112), and the two
columns of the table that name an instruction's mnemonic and its operand. -/

namespace Sys2Proof

/-- The memory addressing modes, with their operand (41_addressing.md R172 to R179). -/
inductive AddrMode where
  | zp (z : Byte)    -- zero page, R172
  | zpx (z : Byte)   -- zero page,X, R173
  | zpy (z : Byte)   -- zero page,Y, R174
  | abs (w : Word)   -- absolute, R175
  | abx (w : Word)   -- absolute,X, R176
  | aby (w : Word)   -- absolute,Y, R177
  | izx (z : Byte)   -- (zero page,X), R178
  | izy (z : Byte)   -- (zero page),Y, R179
deriving DecidableEq, Repr

/-- What the read class reads its operand from (R170): the immediate byte, or memory. -/
inductive Source where
  | imm (i : Byte)
  | mem (m : AddrMode)
deriving DecidableEq, Repr

/-- An instruction's operand: none, A (R180), a source, a branch displacement (R182), the target of JMP absolute and
JSR (48_control_flow.md R349, R351), the pointer of JMP indirect (R183). -/
inductive Operand where
  | implied
  | accumulator
  | source (x : Source)
  | relative (d : Byte)
  | target (w : Word)
  | indirect (w : Word)
deriving DecidableEq, Repr

/-- The formats of the opcode table (30_encoding.md R111). -/
inductive Mode where
  | implied | accumulator | immediate | zeroPage | zeroPageX | zeroPageY | absolute | absoluteX | absoluteY
  | indirectX | indirectY | relative | absoluteIndirect
deriving DecidableEq, Repr

/-- The mnemonics of the opcode table; `undefined` is the table's UNDEFINED (49_undefined.md R370). -/
inductive Mnemonic where
  | brk | ora | undefined | asl | php | bpl | clc | jsr | and | bit | rol | plp | bmi | sec | rti | eor | lsr | pha
  | jmp | bvc | cli | rts | adc | ror | pla | bvs | sei | sta | sty | stx | dey | txa | bcc | tya | txs | ldy | lda
  | ldx | tay | tax | bcs | clv | tsx | cpy | cmp | dec | iny | dex | bne | cld | cpx | sbc | inc | inx | nop | beq
  | sed
deriving DecidableEq, Repr

/-- The instructions: one constructor for each row of the opcode table: the 151 defined opcodes in the table's
order, then the 105 undefined ones. -/
inductive Instr where
  -- 0x00 to 0x0F
  | brk | oraIzx (z : Byte) | oraZp (z : Byte) | aslZp (z : Byte) | php | oraImm (i : Byte) | aslAcc
  | oraAbs (w : Word) | aslAbs (w : Word)
  -- 0x10 to 0x1F
  | bpl (d : Byte) | oraIzy (z : Byte) | oraZpx (z : Byte) | aslZpx (z : Byte) | clc | oraAby (w : Word)
  | oraAbx (w : Word) | aslAbx (w : Word)
  -- 0x20 to 0x2F
  | jsr (w : Word) | andIzx (z : Byte) | bitZp (z : Byte) | andZp (z : Byte) | rolZp (z : Byte) | plp
  | andImm (i : Byte) | rolAcc | bitAbs (w : Word) | andAbs (w : Word) | rolAbs (w : Word)
  -- 0x30 to 0x3F
  | bmi (d : Byte) | andIzy (z : Byte) | andZpx (z : Byte) | rolZpx (z : Byte) | sec | andAby (w : Word)
  | andAbx (w : Word) | rolAbx (w : Word)
  -- 0x40 to 0x4F
  | rti | eorIzx (z : Byte) | eorZp (z : Byte) | lsrZp (z : Byte) | pha | eorImm (i : Byte) | lsrAcc
  | jmpAbs (w : Word) | eorAbs (w : Word) | lsrAbs (w : Word)
  -- 0x50 to 0x5F
  | bvc (d : Byte) | eorIzy (z : Byte) | eorZpx (z : Byte) | lsrZpx (z : Byte) | cli | eorAby (w : Word)
  | eorAbx (w : Word) | lsrAbx (w : Word)
  -- 0x60 to 0x6F
  | rts | adcIzx (z : Byte) | adcZp (z : Byte) | rorZp (z : Byte) | pla | adcImm (i : Byte) | rorAcc
  | jmpInd (w : Word) | adcAbs (w : Word) | rorAbs (w : Word)
  -- 0x70 to 0x7F
  | bvs (d : Byte) | adcIzy (z : Byte) | adcZpx (z : Byte) | rorZpx (z : Byte) | sei | adcAby (w : Word)
  | adcAbx (w : Word) | rorAbx (w : Word)
  -- 0x80 to 0x8F
  | staIzx (z : Byte) | styZp (z : Byte) | staZp (z : Byte) | stxZp (z : Byte) | dey | txa | styAbs (w : Word)
  | staAbs (w : Word) | stxAbs (w : Word)
  -- 0x90 to 0x9F
  | bcc (d : Byte) | staIzy (z : Byte) | styZpx (z : Byte) | staZpx (z : Byte) | stxZpy (z : Byte) | tya
  | staAby (w : Word) | txs | staAbx (w : Word)
  -- 0xA0 to 0xAF
  | ldyImm (i : Byte) | ldaIzx (z : Byte) | ldxImm (i : Byte) | ldyZp (z : Byte) | ldaZp (z : Byte)
  | ldxZp (z : Byte) | tay | ldaImm (i : Byte) | tax | ldyAbs (w : Word) | ldaAbs (w : Word) | ldxAbs (w : Word)
  -- 0xB0 to 0xBF
  | bcs (d : Byte) | ldaIzy (z : Byte) | ldyZpx (z : Byte) | ldaZpx (z : Byte) | ldxZpy (z : Byte) | clv
  | ldaAby (w : Word) | tsx | ldyAbx (w : Word) | ldaAbx (w : Word) | ldxAby (w : Word)
  -- 0xC0 to 0xCF
  | cpyImm (i : Byte) | cmpIzx (z : Byte) | cpyZp (z : Byte) | cmpZp (z : Byte) | decZp (z : Byte) | iny
  | cmpImm (i : Byte) | dex | cpyAbs (w : Word) | cmpAbs (w : Word) | decAbs (w : Word)
  -- 0xD0 to 0xDF
  | bne (d : Byte) | cmpIzy (z : Byte) | cmpZpx (z : Byte) | decZpx (z : Byte) | cld | cmpAby (w : Word)
  | cmpAbx (w : Word) | decAbx (w : Word)
  -- 0xE0 to 0xEF
  | cpxImm (i : Byte) | sbcIzx (z : Byte) | cpxZp (z : Byte) | sbcZp (z : Byte) | incZp (z : Byte) | inx
  | sbcImm (i : Byte) | nop | cpxAbs (w : Word) | sbcAbs (w : Word) | incAbs (w : Word)
  -- 0xF0 to 0xFF
  | beq (d : Byte) | sbcIzy (z : Byte) | sbcZpx (z : Byte) | incZpx (z : Byte) | sed | sbcAby (w : Word)
  | sbcAbx (w : Word) | incAbx (w : Word)
  -- the undefined opcode values (49_undefined.md R371)
  | undef02 | undef03 | undef04 | undef07 | undef0B | undef0C | undef0F | undef12 | undef13 | undef14 | undef17
  | undef1A | undef1B | undef1C | undef1F | undef22 | undef23 | undef27 | undef2B | undef2F | undef32 | undef33
  | undef34 | undef37 | undef3A | undef3B | undef3C | undef3F | undef42 | undef43 | undef44 | undef47 | undef4B
  | undef4F | undef52 | undef53 | undef54 | undef57 | undef5A | undef5B | undef5C | undef5F | undef62 | undef63
  | undef64 | undef67 | undef6B | undef6F | undef72 | undef73 | undef74 | undef77 | undef7A | undef7B | undef7C
  | undef7F | undef80 | undef82 | undef83 | undef87 | undef89 | undef8B | undef8F | undef92 | undef93 | undef97
  | undef9B | undef9C | undef9E | undef9F | undefA3 | undefA7 | undefAB | undefAF | undefB2 | undefB3 | undefB7
  | undefBB | undefBF | undefC2 | undefC3 | undefC7 | undefCB | undefCF | undefD2 | undefD3 | undefD4 | undefD7
  | undefDA | undefDB | undefDC | undefDF | undefE2 | undefE3 | undefE7 | undefEB | undefEF | undefF2 | undefF3
  | undefF4 | undefF7 | undefFA | undefFB | undefFC | undefFF
deriving DecidableEq, Repr

/-- The mnemonic column of the opcode table. -/
def Instr.mnemonic : Instr → Mnemonic
  | .brk => .brk
  | .oraIzx _ | .oraZp _ | .oraImm _ | .oraAbs _ | .oraIzy _ | .oraZpx _ | .oraAby _ | .oraAbx _ => .ora
  | .undef02 | .undef03 | .undef04 | .undef07 | .undef0B | .undef0C | .undef0F | .undef12 | .undef13 | .undef14
  | .undef17 | .undef1A | .undef1B | .undef1C | .undef1F | .undef22 | .undef23 | .undef27 | .undef2B | .undef2F
  | .undef32 | .undef33 | .undef34 | .undef37 | .undef3A | .undef3B | .undef3C | .undef3F | .undef42 | .undef43
  | .undef44 | .undef47 | .undef4B | .undef4F | .undef52 | .undef53 | .undef54 | .undef57 | .undef5A | .undef5B
  | .undef5C | .undef5F | .undef62 | .undef63 | .undef64 | .undef67 | .undef6B | .undef6F | .undef72 | .undef73
  | .undef74 | .undef77 | .undef7A | .undef7B | .undef7C | .undef7F | .undef80 | .undef82 | .undef83 | .undef87
  | .undef89 | .undef8B | .undef8F | .undef92 | .undef93 | .undef97 | .undef9B | .undef9C | .undef9E | .undef9F
  | .undefA3 | .undefA7 | .undefAB | .undefAF | .undefB2 | .undefB3 | .undefB7 | .undefBB | .undefBF | .undefC2
  | .undefC3 | .undefC7 | .undefCB | .undefCF | .undefD2 | .undefD3 | .undefD4 | .undefD7 | .undefDA | .undefDB
  | .undefDC | .undefDF | .undefE2 | .undefE3 | .undefE7 | .undefEB | .undefEF | .undefF2 | .undefF3 | .undefF4
  | .undefF7 | .undefFA | .undefFB | .undefFC | .undefFF => .undefined
  | .aslZp _ | .aslAcc | .aslAbs _ | .aslZpx _ | .aslAbx _ => .asl
  | .php => .php
  | .bpl _ => .bpl
  | .clc => .clc
  | .jsr _ => .jsr
  | .andIzx _ | .andZp _ | .andImm _ | .andAbs _ | .andIzy _ | .andZpx _ | .andAby _ | .andAbx _ => .and
  | .bitZp _ | .bitAbs _ => .bit
  | .rolZp _ | .rolAcc | .rolAbs _ | .rolZpx _ | .rolAbx _ => .rol
  | .plp => .plp
  | .bmi _ => .bmi
  | .sec => .sec
  | .rti => .rti
  | .eorIzx _ | .eorZp _ | .eorImm _ | .eorAbs _ | .eorIzy _ | .eorZpx _ | .eorAby _ | .eorAbx _ => .eor
  | .lsrZp _ | .lsrAcc | .lsrAbs _ | .lsrZpx _ | .lsrAbx _ => .lsr
  | .pha => .pha
  | .jmpAbs _ | .jmpInd _ => .jmp
  | .bvc _ => .bvc
  | .cli => .cli
  | .rts => .rts
  | .adcIzx _ | .adcZp _ | .adcImm _ | .adcAbs _ | .adcIzy _ | .adcZpx _ | .adcAby _ | .adcAbx _ => .adc
  | .rorZp _ | .rorAcc | .rorAbs _ | .rorZpx _ | .rorAbx _ => .ror
  | .pla => .pla
  | .bvs _ => .bvs
  | .sei => .sei
  | .staIzx _ | .staZp _ | .staAbs _ | .staIzy _ | .staZpx _ | .staAby _ | .staAbx _ => .sta
  | .styZp _ | .styAbs _ | .styZpx _ => .sty
  | .stxZp _ | .stxAbs _ | .stxZpy _ => .stx
  | .dey => .dey
  | .txa => .txa
  | .bcc _ => .bcc
  | .tya => .tya
  | .txs => .txs
  | .ldyImm _ | .ldyZp _ | .ldyAbs _ | .ldyZpx _ | .ldyAbx _ => .ldy
  | .ldaIzx _ | .ldaZp _ | .ldaImm _ | .ldaAbs _ | .ldaIzy _ | .ldaZpx _ | .ldaAby _ | .ldaAbx _ => .lda
  | .ldxImm _ | .ldxZp _ | .ldxAbs _ | .ldxZpy _ | .ldxAby _ => .ldx
  | .tay => .tay
  | .tax => .tax
  | .bcs _ => .bcs
  | .clv => .clv
  | .tsx => .tsx
  | .cpyImm _ | .cpyZp _ | .cpyAbs _ => .cpy
  | .cmpIzx _ | .cmpZp _ | .cmpImm _ | .cmpAbs _ | .cmpIzy _ | .cmpZpx _ | .cmpAby _ | .cmpAbx _ => .cmp
  | .decZp _ | .decAbs _ | .decZpx _ | .decAbx _ => .dec
  | .iny => .iny
  | .dex => .dex
  | .bne _ => .bne
  | .cld => .cld
  | .cpxImm _ | .cpxZp _ | .cpxAbs _ => .cpx
  | .sbcIzx _ | .sbcZp _ | .sbcImm _ | .sbcAbs _ | .sbcIzy _ | .sbcZpx _ | .sbcAby _ | .sbcAbx _ => .sbc
  | .incZp _ | .incAbs _ | .incZpx _ | .incAbx _ => .inc
  | .inx => .inx
  | .nop => .nop
  | .beq _ => .beq
  | .sed => .sed

/-- The operand of an instruction, by the format column of the opcode table (R111, R112). -/
def Instr.operand : Instr → Operand
  | .brk | .undef02 | .undef03 | .undef04 | .undef07 | .php | .undef0B | .undef0C | .undef0F | .undef12 | .undef13
  | .undef14 | .undef17 | .clc | .undef1A | .undef1B | .undef1C | .undef1F | .undef22 | .undef23 | .undef27 | .plp
  | .undef2B | .undef2F | .undef32 | .undef33 | .undef34 | .undef37 | .sec | .undef3A | .undef3B | .undef3C
  | .undef3F | .rti | .undef42 | .undef43 | .undef44 | .undef47 | .pha | .undef4B | .undef4F | .undef52 | .undef53
  | .undef54 | .undef57 | .cli | .undef5A | .undef5B | .undef5C | .undef5F | .rts | .undef62 | .undef63 | .undef64
  | .undef67 | .pla | .undef6B | .undef6F | .undef72 | .undef73 | .undef74 | .undef77 | .sei | .undef7A | .undef7B
  | .undef7C | .undef7F | .undef80 | .undef82 | .undef83 | .undef87 | .dey | .undef89 | .txa | .undef8B | .undef8F
  | .undef92 | .undef93 | .undef97 | .tya | .txs | .undef9B | .undef9C | .undef9E | .undef9F | .undefA3 | .undefA7
  | .tay | .tax | .undefAB | .undefAF | .undefB2 | .undefB3 | .undefB7 | .clv | .tsx | .undefBB | .undefBF
  | .undefC2 | .undefC3 | .undefC7 | .iny | .dex | .undefCB | .undefCF | .undefD2 | .undefD3 | .undefD4 | .undefD7
  | .cld | .undefDA | .undefDB | .undefDC | .undefDF | .undefE2 | .undefE3 | .undefE7 | .inx | .nop | .undefEB
  | .undefEF | .undefF2 | .undefF3 | .undefF4 | .undefF7 | .sed | .undefFA | .undefFB | .undefFC | .undefFF => .implied
  | .oraIzx z | .andIzx z | .eorIzx z | .adcIzx z | .staIzx z | .ldaIzx z | .cmpIzx z | .sbcIzx z => .source (.mem (.izx z))
  | .oraZp z | .aslZp z | .bitZp z | .andZp z | .rolZp z | .eorZp z | .lsrZp z | .adcZp z | .rorZp z | .styZp z
  | .staZp z | .stxZp z | .ldyZp z | .ldaZp z | .ldxZp z | .cpyZp z | .cmpZp z | .decZp z | .cpxZp z | .sbcZp z
  | .incZp z => .source (.mem (.zp z))
  | .oraImm i | .andImm i | .eorImm i | .adcImm i | .ldyImm i | .ldxImm i | .ldaImm i | .cpyImm i | .cmpImm i
  | .cpxImm i | .sbcImm i => .source (.imm i)
  | .aslAcc | .rolAcc | .lsrAcc | .rorAcc => .accumulator
  | .oraAbs w | .aslAbs w | .bitAbs w | .andAbs w | .rolAbs w | .eorAbs w | .lsrAbs w | .adcAbs w | .rorAbs w
  | .styAbs w | .staAbs w | .stxAbs w | .ldyAbs w | .ldaAbs w | .ldxAbs w | .cpyAbs w | .cmpAbs w | .decAbs w
  | .cpxAbs w | .sbcAbs w | .incAbs w => .source (.mem (.abs w))
  | .bpl d | .bmi d | .bvc d | .bvs d | .bcc d | .bcs d | .bne d | .beq d => .relative d
  | .oraIzy z | .andIzy z | .eorIzy z | .adcIzy z | .staIzy z | .ldaIzy z | .cmpIzy z | .sbcIzy z => .source (.mem (.izy z))
  | .oraZpx z | .aslZpx z | .andZpx z | .rolZpx z | .eorZpx z | .lsrZpx z | .adcZpx z | .rorZpx z | .styZpx z
  | .staZpx z | .ldyZpx z | .ldaZpx z | .cmpZpx z | .decZpx z | .sbcZpx z | .incZpx z => .source (.mem (.zpx z))
  | .oraAby w | .andAby w | .eorAby w | .adcAby w | .staAby w | .ldaAby w | .ldxAby w | .cmpAby w | .sbcAby w => .source (.mem (.aby w))
  | .oraAbx w | .aslAbx w | .andAbx w | .rolAbx w | .eorAbx w | .lsrAbx w | .adcAbx w | .rorAbx w | .staAbx w
  | .ldyAbx w | .ldaAbx w | .cmpAbx w | .decAbx w | .sbcAbx w | .incAbx w => .source (.mem (.abx w))
  | .jsr w | .jmpAbs w => .target w
  | .jmpInd w => .indirect w
  | .stxZpy z | .ldxZpy z => .source (.mem (.zpy z))

/-- The format of an operand. -/
def Operand.mode : Operand → Mode
  | .implied => .implied
  | .accumulator => .accumulator
  | .source (.imm _) => .immediate
  | .source (.mem (.zp _)) => .zeroPage
  | .source (.mem (.zpx _)) => .zeroPageX
  | .source (.mem (.zpy _)) => .zeroPageY
  | .source (.mem (.abs _)) => .absolute
  | .source (.mem (.abx _)) => .absoluteX
  | .source (.mem (.aby _)) => .absoluteY
  | .source (.mem (.izx _)) => .indirectX
  | .source (.mem (.izy _)) => .indirectY
  | .relative _ => .relative
  | .target _ => .absolute
  | .indirect _ => .absoluteIndirect

/-- The format column of the opcode table. -/
def Instr.mode (i : Instr) : Mode := i.operand.mode

/-- The length in bytes that a format gives (R111). -/
def Mode.length : Mode → Nat
  | .implied | .accumulator => 1
  | .immediate | .zeroPage | .zeroPageX | .zeroPageY | .indirectX | .indirectY | .relative => 2
  | .absolute | .absoluteX | .absoluteY | .absoluteIndirect => 3

/-- An instruction's length in bytes, opcode included (R111). -/
def Instr.length (i : Instr) : Nat := i.mode.length

end Sys2Proof
end

