-- ==== Sys2Proof/WellFormed.lean ====
section
/-! DEFINITION. Which forms the instruction set has: the addressing modes each mnemonic admits, as the "Operands" line of its
rule lists them (42_load_store.md to 49_undefined.md; 41_addressing.md R170). Operands are typed at their encoding's width and
every value of a field is admitted (30_encoding.md R112), so the mode is the one thing a form can get wrong. -/

namespace Sys2Proof

/-- The eight modes of the read class (41_addressing.md R170). -/
def readModes : List Mode :=
  [.immediate, .zeroPage, .zeroPageX, .absolute, .absoluteX, .absoluteY, .indirectX, .indirectY]

/-- The four memory modes of the address-only class (R170). -/
def rmwModes : List Mode := [.zeroPage, .zeroPageX, .absolute, .absoluteX]

/-- The modes that a mnemonic's rule lists under "Operands". -/
def Mnemonic.modes : Mnemonic → List Mode
  | .lda | .adc | .sbc | .and | .ora | .eor | .cmp => readModes
  | .ldx => [.immediate, .zeroPage, .zeroPageY, .absolute, .absoluteY]
  | .ldy => [.immediate, .zeroPage, .zeroPageX, .absolute, .absoluteX]
  | .sta => [.zeroPage, .zeroPageX, .absolute, .absoluteX, .absoluteY, .indirectX, .indirectY]
  | .stx => [.zeroPage, .zeroPageY, .absolute]
  | .sty => [.zeroPage, .zeroPageX, .absolute]
  | .cpx | .cpy => [.immediate, .zeroPage, .absolute]
  | .bit => [.zeroPage, .absolute]
  | .asl | .lsr | .rol | .ror => .accumulator :: rmwModes
  | .inc | .dec => rmwModes
  | .bpl | .bmi | .bvc | .bvs | .bcc | .bcs | .bne | .beq => [.relative]
  | .jmp => [.absolute, .absoluteIndirect]
  | .jsr => [.absolute]
  | .tax | .tay | .txa | .tya | .tsx | .txs | .inx | .iny | .dex | .dey
  | .clc | .sec | .cli | .sei | .cld | .sed | .clv | .nop
  | .pha | .php | .pla | .plp | .rts | .rti | .brk | .undefined => [.implied]

/-- A form: a mnemonic with the mode it is written in. -/
structure Form where
  mnemonic : Mnemonic
  mode : Mode
deriving DecidableEq, Repr

/-- The mode is one that the mnemonic's rule lists. -/
def Form.wf (f : Form) : Bool := f.mnemonic.modes.contains f.mode

/-- The form of an instruction. -/
def Instr.form (i : Instr) : Form := ⟨i.mnemonic, i.mode⟩

/-- An instruction is well-formed when its form is one its rule lists. -/
def Instr.wf (i : Instr) : Bool := i.form.wf

end Sys2Proof
end

