-- ==== Sys2Proof/Decode.lean ====
section
/-! DEFINITION. From bytes to instructions and back (30_encoding.md R110 to R117). Decoding is total on every byte list: each
of the 256 opcode values has its instruction, and a list that ends inside an instruction is rejected by name. -/

namespace Sys2Proof

/-- The 16-bit value with the given low and high byte: little-endian, the low byte stands first (20_memory.md R85). -/
def wordOf (lo hi : Byte) : Word := hi ++ lo

/-- Bits 7..0 of a 16-bit value. -/
def loByte (w : Word) : Byte := w.extractLsb' 0 8

/-- Bits 15..8 of a 16-bit value. -/
def hiByte (w : Word) : Byte := w.extractLsb' 8 8

/-- Opcodes 0x00 to 0x0F of R114, by the low digit; `b` and `c` are the operand bytes. -/
def decodeRow0 (b c : Byte) : Nat → Instr
  | 0 => .brk
  | 1 => .oraIzx b
  | 2 => .undef02
  | 3 => .undef03
  | 4 => .undef04
  | 5 => .oraZp b
  | 6 => .aslZp b
  | 7 => .undef07
  | 8 => .php
  | 9 => .oraImm b
  | 10 => .aslAcc
  | 11 => .undef0B
  | 12 => .undef0C
  | 13 => .oraAbs (wordOf b c)
  | 14 => .aslAbs (wordOf b c)
  | _ => .undef0F

/-- Opcodes 0x10 to 0x1F of R114, by the low digit; `b` and `c` are the operand bytes. -/
def decodeRow1 (b c : Byte) : Nat → Instr
  | 0 => .bpl b
  | 1 => .oraIzy b
  | 2 => .undef12
  | 3 => .undef13
  | 4 => .undef14
  | 5 => .oraZpx b
  | 6 => .aslZpx b
  | 7 => .undef17
  | 8 => .clc
  | 9 => .oraAby (wordOf b c)
  | 10 => .undef1A
  | 11 => .undef1B
  | 12 => .undef1C
  | 13 => .oraAbx (wordOf b c)
  | 14 => .aslAbx (wordOf b c)
  | _ => .undef1F

/-- Opcodes 0x20 to 0x2F of R114, by the low digit; `b` and `c` are the operand bytes. -/
def decodeRow2 (b c : Byte) : Nat → Instr
  | 0 => .jsr (wordOf b c)
  | 1 => .andIzx b
  | 2 => .undef22
  | 3 => .undef23
  | 4 => .bitZp b
  | 5 => .andZp b
  | 6 => .rolZp b
  | 7 => .undef27
  | 8 => .plp
  | 9 => .andImm b
  | 10 => .rolAcc
  | 11 => .undef2B
  | 12 => .bitAbs (wordOf b c)
  | 13 => .andAbs (wordOf b c)
  | 14 => .rolAbs (wordOf b c)
  | _ => .undef2F

/-- Opcodes 0x30 to 0x3F of R114, by the low digit; `b` and `c` are the operand bytes. -/
def decodeRow3 (b c : Byte) : Nat → Instr
  | 0 => .bmi b
  | 1 => .andIzy b
  | 2 => .undef32
  | 3 => .undef33
  | 4 => .undef34
  | 5 => .andZpx b
  | 6 => .rolZpx b
  | 7 => .undef37
  | 8 => .sec
  | 9 => .andAby (wordOf b c)
  | 10 => .undef3A
  | 11 => .undef3B
  | 12 => .undef3C
  | 13 => .andAbx (wordOf b c)
  | 14 => .rolAbx (wordOf b c)
  | _ => .undef3F

/-- Opcodes 0x40 to 0x4F of R114, by the low digit; `b` and `c` are the operand bytes. -/
def decodeRow4 (b c : Byte) : Nat → Instr
  | 0 => .rti
  | 1 => .eorIzx b
  | 2 => .undef42
  | 3 => .undef43
  | 4 => .undef44
  | 5 => .eorZp b
  | 6 => .lsrZp b
  | 7 => .undef47
  | 8 => .pha
  | 9 => .eorImm b
  | 10 => .lsrAcc
  | 11 => .undef4B
  | 12 => .jmpAbs (wordOf b c)
  | 13 => .eorAbs (wordOf b c)
  | 14 => .lsrAbs (wordOf b c)
  | _ => .undef4F

/-- Opcodes 0x50 to 0x5F of R114, by the low digit; `b` and `c` are the operand bytes. -/
def decodeRow5 (b c : Byte) : Nat → Instr
  | 0 => .bvc b
  | 1 => .eorIzy b
  | 2 => .undef52
  | 3 => .undef53
  | 4 => .undef54
  | 5 => .eorZpx b
  | 6 => .lsrZpx b
  | 7 => .undef57
  | 8 => .cli
  | 9 => .eorAby (wordOf b c)
  | 10 => .undef5A
  | 11 => .undef5B
  | 12 => .undef5C
  | 13 => .eorAbx (wordOf b c)
  | 14 => .lsrAbx (wordOf b c)
  | _ => .undef5F

/-- Opcodes 0x60 to 0x6F of R114, by the low digit; `b` and `c` are the operand bytes. -/
def decodeRow6 (b c : Byte) : Nat → Instr
  | 0 => .rts
  | 1 => .adcIzx b
  | 2 => .undef62
  | 3 => .undef63
  | 4 => .undef64
  | 5 => .adcZp b
  | 6 => .rorZp b
  | 7 => .undef67
  | 8 => .pla
  | 9 => .adcImm b
  | 10 => .rorAcc
  | 11 => .undef6B
  | 12 => .jmpInd (wordOf b c)
  | 13 => .adcAbs (wordOf b c)
  | 14 => .rorAbs (wordOf b c)
  | _ => .undef6F

/-- Opcodes 0x70 to 0x7F of R114, by the low digit; `b` and `c` are the operand bytes. -/
def decodeRow7 (b c : Byte) : Nat → Instr
  | 0 => .bvs b
  | 1 => .adcIzy b
  | 2 => .undef72
  | 3 => .undef73
  | 4 => .undef74
  | 5 => .adcZpx b
  | 6 => .rorZpx b
  | 7 => .undef77
  | 8 => .sei
  | 9 => .adcAby (wordOf b c)
  | 10 => .undef7A
  | 11 => .undef7B
  | 12 => .undef7C
  | 13 => .adcAbx (wordOf b c)
  | 14 => .rorAbx (wordOf b c)
  | _ => .undef7F

/-- Opcodes 0x80 to 0x8F of R114, by the low digit; `b` and `c` are the operand bytes. -/
def decodeRow8 (b c : Byte) : Nat → Instr
  | 0 => .undef80
  | 1 => .staIzx b
  | 2 => .undef82
  | 3 => .undef83
  | 4 => .styZp b
  | 5 => .staZp b
  | 6 => .stxZp b
  | 7 => .undef87
  | 8 => .dey
  | 9 => .undef89
  | 10 => .txa
  | 11 => .undef8B
  | 12 => .styAbs (wordOf b c)
  | 13 => .staAbs (wordOf b c)
  | 14 => .stxAbs (wordOf b c)
  | _ => .undef8F

/-- Opcodes 0x90 to 0x9F of R114, by the low digit; `b` and `c` are the operand bytes. -/
def decodeRow9 (b c : Byte) : Nat → Instr
  | 0 => .bcc b
  | 1 => .staIzy b
  | 2 => .undef92
  | 3 => .undef93
  | 4 => .styZpx b
  | 5 => .staZpx b
  | 6 => .stxZpy b
  | 7 => .undef97
  | 8 => .tya
  | 9 => .staAby (wordOf b c)
  | 10 => .txs
  | 11 => .undef9B
  | 12 => .undef9C
  | 13 => .staAbx (wordOf b c)
  | 14 => .undef9E
  | _ => .undef9F

/-- Opcodes 0xA0 to 0xAF of R114, by the low digit; `b` and `c` are the operand bytes. -/
def decodeRowA (b c : Byte) : Nat → Instr
  | 0 => .ldyImm b
  | 1 => .ldaIzx b
  | 2 => .ldxImm b
  | 3 => .undefA3
  | 4 => .ldyZp b
  | 5 => .ldaZp b
  | 6 => .ldxZp b
  | 7 => .undefA7
  | 8 => .tay
  | 9 => .ldaImm b
  | 10 => .tax
  | 11 => .undefAB
  | 12 => .ldyAbs (wordOf b c)
  | 13 => .ldaAbs (wordOf b c)
  | 14 => .ldxAbs (wordOf b c)
  | _ => .undefAF

/-- Opcodes 0xB0 to 0xBF of R114, by the low digit; `b` and `c` are the operand bytes. -/
def decodeRowB (b c : Byte) : Nat → Instr
  | 0 => .bcs b
  | 1 => .ldaIzy b
  | 2 => .undefB2
  | 3 => .undefB3
  | 4 => .ldyZpx b
  | 5 => .ldaZpx b
  | 6 => .ldxZpy b
  | 7 => .undefB7
  | 8 => .clv
  | 9 => .ldaAby (wordOf b c)
  | 10 => .tsx
  | 11 => .undefBB
  | 12 => .ldyAbx (wordOf b c)
  | 13 => .ldaAbx (wordOf b c)
  | 14 => .ldxAby (wordOf b c)
  | _ => .undefBF

/-- Opcodes 0xC0 to 0xCF of R114, by the low digit; `b` and `c` are the operand bytes. -/
def decodeRowC (b c : Byte) : Nat → Instr
  | 0 => .cpyImm b
  | 1 => .cmpIzx b
  | 2 => .undefC2
  | 3 => .undefC3
  | 4 => .cpyZp b
  | 5 => .cmpZp b
  | 6 => .decZp b
  | 7 => .undefC7
  | 8 => .iny
  | 9 => .cmpImm b
  | 10 => .dex
  | 11 => .undefCB
  | 12 => .cpyAbs (wordOf b c)
  | 13 => .cmpAbs (wordOf b c)
  | 14 => .decAbs (wordOf b c)
  | _ => .undefCF

/-- Opcodes 0xD0 to 0xDF of R114, by the low digit; `b` and `c` are the operand bytes. -/
def decodeRowD (b c : Byte) : Nat → Instr
  | 0 => .bne b
  | 1 => .cmpIzy b
  | 2 => .undefD2
  | 3 => .undefD3
  | 4 => .undefD4
  | 5 => .cmpZpx b
  | 6 => .decZpx b
  | 7 => .undefD7
  | 8 => .cld
  | 9 => .cmpAby (wordOf b c)
  | 10 => .undefDA
  | 11 => .undefDB
  | 12 => .undefDC
  | 13 => .cmpAbx (wordOf b c)
  | 14 => .decAbx (wordOf b c)
  | _ => .undefDF

/-- Opcodes 0xE0 to 0xEF of R114, by the low digit; `b` and `c` are the operand bytes. -/
def decodeRowE (b c : Byte) : Nat → Instr
  | 0 => .cpxImm b
  | 1 => .sbcIzx b
  | 2 => .undefE2
  | 3 => .undefE3
  | 4 => .cpxZp b
  | 5 => .sbcZp b
  | 6 => .incZp b
  | 7 => .undefE7
  | 8 => .inx
  | 9 => .sbcImm b
  | 10 => .nop
  | 11 => .undefEB
  | 12 => .cpxAbs (wordOf b c)
  | 13 => .sbcAbs (wordOf b c)
  | 14 => .incAbs (wordOf b c)
  | _ => .undefEF

/-- Opcodes 0xF0 to 0xFF of R114, by the low digit; `b` and `c` are the operand bytes. -/
def decodeRowF (b c : Byte) : Nat → Instr
  | 0 => .beq b
  | 1 => .sbcIzy b
  | 2 => .undefF2
  | 3 => .undefF3
  | 4 => .undefF4
  | 5 => .sbcZpx b
  | 6 => .incZpx b
  | 7 => .undefF7
  | 8 => .sed
  | 9 => .sbcAby (wordOf b c)
  | 10 => .undefFA
  | 11 => .undefFB
  | 12 => .undefFC
  | 13 => .sbcAbx (wordOf b c)
  | 14 => .incAbx (wordOf b c)
  | _ => .undefFF

/-- The instruction that the opcode byte `op` selects, with the operand bytes `b` and `c` (R114, R116): "the opcode byte
alone selects the operation and the addressing mode" (R110). A row uses as many of `b`, `c` as its format has. -/
def decodeOpcode (op b c : Byte) : Instr :=
  let lo := op.toNat % 16
  match op.toNat / 16 with
  | 0 => decodeRow0 b c lo
  | 1 => decodeRow1 b c lo
  | 2 => decodeRow2 b c lo
  | 3 => decodeRow3 b c lo
  | 4 => decodeRow4 b c lo
  | 5 => decodeRow5 b c lo
  | 6 => decodeRow6 b c lo
  | 7 => decodeRow7 b c lo
  | 8 => decodeRow8 b c lo
  | 9 => decodeRow9 b c lo
  | 10 => decodeRowA b c lo
  | 11 => decodeRowB b c lo
  | 12 => decodeRowC b c lo
  | 13 => decodeRowD b c lo
  | 14 => decodeRowE b c lo
  | _ => decodeRowF b c lo

/-- How many operand bytes follow the opcode `op` (R111: "a decoder finds the length from the opcode byte alone"). -/
def operandCount (op : Byte) : Nat := (decodeOpcode op 0 0).length - 1

/-- Why a byte list is not an instruction. No opcode value is rejected (R117). -/
inductive DecodeError where
  | noOpcode                -- the list is empty
  | truncated (op : Byte)   -- the list ends before the operand bytes of `op`
deriving DecidableEq, Repr

/-- The instruction at the head of a byte list, and the bytes after it (R110, R111). -/
def decode : List Byte → Except DecodeError (Instr × List Byte)
  | [] => .error .noOpcode
  | op :: rest =>
    match operandCount op, rest with
    | 0, r => .ok (decodeOpcode op 0 0, r)
    | 1, b :: r => .ok (decodeOpcode op b 0, r)
    | 2, b :: c :: r => .ok (decodeOpcode op b c, r)
    | _, _ => .error (.truncated op)

/-- The opcode column of the opcode table (R114, R116). -/
def Instr.opcode : Instr → Byte
  | .brk => 0x00
  | .oraIzx _ => 0x01
  | .undef02 => 0x02
  | .undef03 => 0x03
  | .undef04 => 0x04
  | .oraZp _ => 0x05
  | .aslZp _ => 0x06
  | .undef07 => 0x07
  | .php => 0x08
  | .oraImm _ => 0x09
  | .aslAcc => 0x0A
  | .undef0B => 0x0B
  | .undef0C => 0x0C
  | .oraAbs _ => 0x0D
  | .aslAbs _ => 0x0E
  | .undef0F => 0x0F
  | .bpl _ => 0x10
  | .oraIzy _ => 0x11
  | .undef12 => 0x12
  | .undef13 => 0x13
  | .undef14 => 0x14
  | .oraZpx _ => 0x15
  | .aslZpx _ => 0x16
  | .undef17 => 0x17
  | .clc => 0x18
  | .oraAby _ => 0x19
  | .undef1A => 0x1A
  | .undef1B => 0x1B
  | .undef1C => 0x1C
  | .oraAbx _ => 0x1D
  | .aslAbx _ => 0x1E
  | .undef1F => 0x1F
  | .jsr _ => 0x20
  | .andIzx _ => 0x21
  | .undef22 => 0x22
  | .undef23 => 0x23
  | .bitZp _ => 0x24
  | .andZp _ => 0x25
  | .rolZp _ => 0x26
  | .undef27 => 0x27
  | .plp => 0x28
  | .andImm _ => 0x29
  | .rolAcc => 0x2A
  | .undef2B => 0x2B
  | .bitAbs _ => 0x2C
  | .andAbs _ => 0x2D
  | .rolAbs _ => 0x2E
  | .undef2F => 0x2F
  | .bmi _ => 0x30
  | .andIzy _ => 0x31
  | .undef32 => 0x32
  | .undef33 => 0x33
  | .undef34 => 0x34
  | .andZpx _ => 0x35
  | .rolZpx _ => 0x36
  | .undef37 => 0x37
  | .sec => 0x38
  | .andAby _ => 0x39
  | .undef3A => 0x3A
  | .undef3B => 0x3B
  | .undef3C => 0x3C
  | .andAbx _ => 0x3D
  | .rolAbx _ => 0x3E
  | .undef3F => 0x3F
  | .rti => 0x40
  | .eorIzx _ => 0x41
  | .undef42 => 0x42
  | .undef43 => 0x43
  | .undef44 => 0x44
  | .eorZp _ => 0x45
  | .lsrZp _ => 0x46
  | .undef47 => 0x47
  | .pha => 0x48
  | .eorImm _ => 0x49
  | .lsrAcc => 0x4A
  | .undef4B => 0x4B
  | .jmpAbs _ => 0x4C
  | .eorAbs _ => 0x4D
  | .lsrAbs _ => 0x4E
  | .undef4F => 0x4F
  | .bvc _ => 0x50
  | .eorIzy _ => 0x51
  | .undef52 => 0x52
  | .undef53 => 0x53
  | .undef54 => 0x54
  | .eorZpx _ => 0x55
  | .lsrZpx _ => 0x56
  | .undef57 => 0x57
  | .cli => 0x58
  | .eorAby _ => 0x59
  | .undef5A => 0x5A
  | .undef5B => 0x5B
  | .undef5C => 0x5C
  | .eorAbx _ => 0x5D
  | .lsrAbx _ => 0x5E
  | .undef5F => 0x5F
  | .rts => 0x60
  | .adcIzx _ => 0x61
  | .undef62 => 0x62
  | .undef63 => 0x63
  | .undef64 => 0x64
  | .adcZp _ => 0x65
  | .rorZp _ => 0x66
  | .undef67 => 0x67
  | .pla => 0x68
  | .adcImm _ => 0x69
  | .rorAcc => 0x6A
  | .undef6B => 0x6B
  | .jmpInd _ => 0x6C
  | .adcAbs _ => 0x6D
  | .rorAbs _ => 0x6E
  | .undef6F => 0x6F
  | .bvs _ => 0x70
  | .adcIzy _ => 0x71
  | .undef72 => 0x72
  | .undef73 => 0x73
  | .undef74 => 0x74
  | .adcZpx _ => 0x75
  | .rorZpx _ => 0x76
  | .undef77 => 0x77
  | .sei => 0x78
  | .adcAby _ => 0x79
  | .undef7A => 0x7A
  | .undef7B => 0x7B
  | .undef7C => 0x7C
  | .adcAbx _ => 0x7D
  | .rorAbx _ => 0x7E
  | .undef7F => 0x7F
  | .undef80 => 0x80
  | .staIzx _ => 0x81
  | .undef82 => 0x82
  | .undef83 => 0x83
  | .styZp _ => 0x84
  | .staZp _ => 0x85
  | .stxZp _ => 0x86
  | .undef87 => 0x87
  | .dey => 0x88
  | .undef89 => 0x89
  | .txa => 0x8A
  | .undef8B => 0x8B
  | .styAbs _ => 0x8C
  | .staAbs _ => 0x8D
  | .stxAbs _ => 0x8E
  | .undef8F => 0x8F
  | .bcc _ => 0x90
  | .staIzy _ => 0x91
  | .undef92 => 0x92
  | .undef93 => 0x93
  | .styZpx _ => 0x94
  | .staZpx _ => 0x95
  | .stxZpy _ => 0x96
  | .undef97 => 0x97
  | .tya => 0x98
  | .staAby _ => 0x99
  | .txs => 0x9A
  | .undef9B => 0x9B
  | .undef9C => 0x9C
  | .staAbx _ => 0x9D
  | .undef9E => 0x9E
  | .undef9F => 0x9F
  | .ldyImm _ => 0xA0
  | .ldaIzx _ => 0xA1
  | .ldxImm _ => 0xA2
  | .undefA3 => 0xA3
  | .ldyZp _ => 0xA4
  | .ldaZp _ => 0xA5
  | .ldxZp _ => 0xA6
  | .undefA7 => 0xA7
  | .tay => 0xA8
  | .ldaImm _ => 0xA9
  | .tax => 0xAA
  | .undefAB => 0xAB
  | .ldyAbs _ => 0xAC
  | .ldaAbs _ => 0xAD
  | .ldxAbs _ => 0xAE
  | .undefAF => 0xAF
  | .bcs _ => 0xB0
  | .ldaIzy _ => 0xB1
  | .undefB2 => 0xB2
  | .undefB3 => 0xB3
  | .ldyZpx _ => 0xB4
  | .ldaZpx _ => 0xB5
  | .ldxZpy _ => 0xB6
  | .undefB7 => 0xB7
  | .clv => 0xB8
  | .ldaAby _ => 0xB9
  | .tsx => 0xBA
  | .undefBB => 0xBB
  | .ldyAbx _ => 0xBC
  | .ldaAbx _ => 0xBD
  | .ldxAby _ => 0xBE
  | .undefBF => 0xBF
  | .cpyImm _ => 0xC0
  | .cmpIzx _ => 0xC1
  | .undefC2 => 0xC2
  | .undefC3 => 0xC3
  | .cpyZp _ => 0xC4
  | .cmpZp _ => 0xC5
  | .decZp _ => 0xC6
  | .undefC7 => 0xC7
  | .iny => 0xC8
  | .cmpImm _ => 0xC9
  | .dex => 0xCA
  | .undefCB => 0xCB
  | .cpyAbs _ => 0xCC
  | .cmpAbs _ => 0xCD
  | .decAbs _ => 0xCE
  | .undefCF => 0xCF
  | .bne _ => 0xD0
  | .cmpIzy _ => 0xD1
  | .undefD2 => 0xD2
  | .undefD3 => 0xD3
  | .undefD4 => 0xD4
  | .cmpZpx _ => 0xD5
  | .decZpx _ => 0xD6
  | .undefD7 => 0xD7
  | .cld => 0xD8
  | .cmpAby _ => 0xD9
  | .undefDA => 0xDA
  | .undefDB => 0xDB
  | .undefDC => 0xDC
  | .cmpAbx _ => 0xDD
  | .decAbx _ => 0xDE
  | .undefDF => 0xDF
  | .cpxImm _ => 0xE0
  | .sbcIzx _ => 0xE1
  | .undefE2 => 0xE2
  | .undefE3 => 0xE3
  | .cpxZp _ => 0xE4
  | .sbcZp _ => 0xE5
  | .incZp _ => 0xE6
  | .undefE7 => 0xE7
  | .inx => 0xE8
  | .sbcImm _ => 0xE9
  | .nop => 0xEA
  | .undefEB => 0xEB
  | .cpxAbs _ => 0xEC
  | .sbcAbs _ => 0xED
  | .incAbs _ => 0xEE
  | .undefEF => 0xEF
  | .beq _ => 0xF0
  | .sbcIzy _ => 0xF1
  | .undefF2 => 0xF2
  | .undefF3 => 0xF3
  | .undefF4 => 0xF4
  | .sbcZpx _ => 0xF5
  | .incZpx _ => 0xF6
  | .undefF7 => 0xF7
  | .sed => 0xF8
  | .sbcAby _ => 0xF9
  | .undefFA => 0xFA
  | .undefFB => 0xFB
  | .undefFC => 0xFC
  | .sbcAbx _ => 0xFD
  | .incAbx _ => 0xFE
  | .undefFF => 0xFF

/-- The operand bytes of an addressing mode's operand, the low byte of an address first (R112). -/
def AddrMode.bytes : AddrMode → List Byte
  | .zp z | .zpx z | .zpy z | .izx z | .izy z => [z]
  | .abs w | .abx w | .aby w => [loByte w, hiByte w]

/-- The operand bytes of an operand (R111, R112). -/
def Operand.bytes : Operand → List Byte
  | .implied | .accumulator => []
  | .source (.imm i) => [i]
  | .source (.mem m) => m.bytes
  | .relative d => [d]
  | .target w | .indirect w => [loByte w, hiByte w]

/-- The bytes of an instruction: its opcode, then its operand bytes (R110). -/
def encode (i : Instr) : List Byte := i.opcode :: i.operand.bytes

/-- Byte `k` of an instruction's bits numbered from the least significant bit of its first byte. -/
def tableByte (w k : Nat) : Byte := BitVec.ofNat 8 (w / 2 ^ (8 * k))

/-- The longest instruction: 3 bytes (R111). -/
def maxLength : Nat := 3

/-- The bytes of an instruction whose bits are `w`, every bit from `nbits` up 0, up to the longest instruction. -/
def tableBytes (nbits w : Nat) : List Byte :=
  (List.range maxLength).map (tableByte (w % 2 ^ nbits))

/-- The instruction the decoder reads from an instruction whose bits are `w` (bit 0 the least significant bit of the first
byte, a later byte's bits counting on; the bits from `nbits` up 0). -/
def decodeTableWord (nbits w : Nat) : Option Instr :=
  match decode (tableBytes nbits w) with
  | .ok (i, _) => some i
  | .error _ => none

end Sys2Proof
end

