-- ==== Sys2Proof/Config.lean ====
section
/-! DEFINITION. What the spec leaves to the implementation: the three OPEN parameters of 00_scope.md R10 as
constants without a body (a claim that holds here holds for every value), and the types of the switches of R11.
The switch settings in force are in Sys2Proof/Machine/Params.lean. -/

namespace Sys2Proof

/-- UNMAPPED_READ_BYTE, the "fixed sentinel byte" an absent ROM reads as (20_memory.md R81). Free value, log 2. -/
opaque Config.unmappedReadByte : Byte

/-- INITIAL_RAM, the RAM contents at power-on by address (10_state.md R47). Free value, log 1. -/
opaque Config.initialRam : Nat → Byte

/-- PALETTE_DECODE(mode, sheila[8..15], logical), the physical colour (60_exceptions.md R437). Free value, log 3. -/
opaque Config.paletteDecode : BitVec 3 → Vector Byte 8 → Fin 16 → Fin 8

/-- DECIMAL_FLAGS (43_arithmetic.md R222, R226). -/
inductive DecimalFlags where
  | doc
  | nmos
deriving DecidableEq, Repr

/-- INDEXED_STORE_TIMING (41_addressing.md R185, 30_encoding.md R115). -/
inductive StoreTiming where
  | doc
  | nmos
deriving DecidableEq, Repr

end Sys2Proof
end

