-- ==== Sys2Proof/Machine/Params.lean ====
section
/-! DEFINITION. The parameters of 00_scope.md R10 that have a value, at the value R10 gives, and the five switches of R11 at
their default. The operations that depend on a switch take the setting as an argument; the machine runs with these. -/

namespace Sys2Proof.Machine

/-- INTERRUPT_CYCLES (R10). -/
def interruptCycles : Nat := 7

/-- UNDEFINED_CYCLES (R10). -/
def undefinedCycles : Nat := 2

/-- VECTOR_NMI (R10, 60_exceptions.md R411). -/
def vectorNmi : Word := 0xFFFA

/-- VECTOR_RESET (R10, R411). -/
def vectorReset : Word := 0xFFFC

/-- VECTOR_IRQ, also BRK's (R10, R411). -/
def vectorIrq : Word := 0xFFFE

/-- SCANLINE_CYCLES (R10). -/
def scanlineCycles : Nat := 128

/-- FRAME_LINES (R10). -/
def frameLines : Nat := 312

/-- VISIBLE_LINES (R10). -/
def visibleLines : Nat := 256

/-- RTC_SCANLINE (R10). -/
def rtcScanline : Nat := 100

/-- DISPLAY_END_SCANLINE (R10). -/
def displayEndScanline : Nat := 256

/-- CASSETTE_BYTE_SCANLINES (R10). -/
def cassetteByteScanlines : Nat := 130

/-- KEYBOARD_PAGE (R10, 20_memory.md R79). -/
def keyboardPage : BitVec 4 := 8

/-- BANK_SIZE and OS_ROM_SIZE (R10). -/
def romSize : Nat := 0x4000

/-- RAM_SIZE (R10). -/
def ramSize : Nat := 0x8000

/-- The pages of RESTRICTED_PAGES, 8..11 (R10, 60_exceptions.md R430). -/
def restrictedPage (page : BitVec 4) : Bool := 8 ≤ page.toNat && page.toNat ≤ 11

/-- The physical bank of a page: pages 10 and 11, BASIC_ALIAS_PAGES, both select bank 10 (20_memory.md R78). -/
def physicalBank (page : BitVec 4) : Fin 16 := if page = 11 then 10 else page.toFin

/-- DECIMAL_FLAGS at its default (R10, R11). -/
def decimalFlags : DecimalFlags := .doc

/-- COMPARE_WRITES_V at its default. -/
def compareWritesV : Bool := true

/-- INDEXED_STORE_TIMING at its default. -/
def indexedStoreTiming : StoreTiming := .doc

/-- JMP_INDIRECT_PAGE_WRAP at its default. -/
def jmpIndirectPageWrap : Bool := true

/-- BRK_PUSH_OFFSET at its default. -/
def brkPushOffset : Word := 2

end Sys2Proof.Machine
end

