-- ==== Sys2Proof/Machine/State.lean ====
section
/-! DEFINITION. The state of the machine: every element of spec/10_state.md, the driver state of 60_exceptions.md R453, and the
model's own fields for what comes in (host calls, Tape answers) and what goes out (Video and Tape calls). Plain data. -/

namespace Sys2Proof.Machine

/-- The kinds of breakpoint (10_state.md R45). -/
inductive BreakpointKind where
  | none
  | atAddress
  | onRead
  | onWrite
deriving DecidableEq, Repr

/-- The states of the frame driver (60_exceptions.md R453). -/
inductive DriverState where
  | idle           -- between calls: the host may use its operations
  | runningFrame   -- inside a call of `run_frame`
deriving DecidableEq, Repr

/-- How a call of `run_frame` ends (60_exceptions.md R450). -/
inductive FrameResult where
  | frameComplete
  | breakpoint
deriving DecidableEq, Repr

/-- One answer of the Tape oracle at one cassette action in read mode: `is_at_end()` true, or `is_at_end()` false and then
the symbol `next_symbol()` gives (60_exceptions.md R461, R472). -/
inductive TapeAnswer where
  | atEnd
  | byte (b : Byte)
  | highTone
  | silence
deriving DecidableEq, Repr

/-- What the core puts out, in order: the Video and Tape calls (60_exceptions.md R472, R473; 00_scope.md R17), the log of an
undefined opcode (49_undefined.md R370), and what a host call returns to the host. -/
inductive OutputEvent where
  | videoSetMode (mode : BitVec 3)
  | videoSetStartAddress (addr : Word)
  | videoSetColor (logical : Fin 16) (physical : Fin 8)
  | videoDrawScanline (line : Nat)
  | tapeIsAtEnd
  | tapeNextSymbol
  | tapeStoreByte (b : Byte)
  | tapeStoreHighTone
  | undefinedOpcode (op : Byte) (addr : Word)
  | frameReturned (r : FrameResult)
  | romLoadReturned (ok : Bool)
  | romClearReturned (ok : Bool)
  | debugReadReturned (addr : Word) (b : Byte)
deriving DecidableEq, Repr

/-- The operations the host calls between calls into the core (00_scope.md R9; 60_exceptions.md section 8). -/
inductive HostCall where
  | runFrame
  | step
  | restart
  | setBreakpoint (kind : BreakpointKind) (addr : Word)
  | press (row : Fin 14) (col : Fin 4)
  | release (row : Fin 14) (col : Fin 4)
  | loadOsRom (source : List Byte)
  | clearOsRom
  | loadBank (bank : BitVec 4) (source : List Byte)
  | clearBank (bank : BitVec 4)
  | triggerNmi
  | debugRead (addr : Word)
deriving DecidableEq, Repr

/-- The bytes of a present 16 KiB ROM by offset, the zero bytes left out (log 12). -/
abbrev RomImage := List Host.Cell

/-- The state of the core: CPU, machine, driver, and the model's inputs and recorded outputs. -/
structure State where
  /-- A, the accumulator (10_state.md R30) -/
  a : Byte
  /-- X (R30) -/
  x : Byte
  /-- Y (R30) -/
  y : Byte
  /-- S, the stack pointer (R31) -/
  sp : Byte
  /-- P, the status register, all eight bits stored (R33) -/
  p : Byte
  /-- PC (R32) -/
  pc : Word
  /-- `cycle_time`, an unbounded natural (R42) -/
  cycleTime : Nat
  /-- `irq_pending` (R43) -/
  irqPending : Bool
  /-- `nmi_pending` (R44) -/
  nmiPending : Bool
  /-- the kind of the breakpoint (R45) -/
  bpKind : BreakpointKind
  /-- the target address of the breakpoint (R45) -/
  bpAddr : Word
  /-- the one-shot hit flag of the breakpoint (R45) -/
  bpHit : Bool
  /-- `current_instruction`, the last fetched opcode byte (R46) -/
  currentInstruction : Byte
  /-- the bytes of RAM written since power-on (R47); an unlisted byte is INITIAL_RAM's, log 1 -/
  ram : List Host.Cell
  /-- `os_rom`, or absent (R48) -/
  osRom : Option RomImage
  /-- `paged_roms[0..15]`, each present or absent (R49) -/
  pagedRoms : Vector (Option RomImage) 16
  /-- `page`, the 4-bit bank selector (R50) -/
  page : BitVec 4
  /-- `sheila[0..15]`, the peripheral register block (R51) -/
  sheila : Vector Byte 16
  /-- `int_status`, the pending-status byte (R52) -/
  intStatus : Byte
  /-- `interrupt_enable_mask` (R53) -/
  enableMask : Byte
  /-- `scanline`, the counter 0..311 (R54) -/
  scanline : Nat
  /-- `cassette_scanline_counter` (R55) -/
  cassetteCounter : Nat
  /-- `data_shift_has_data` (R56) -/
  dataShiftHasData : Bool
  /-- `keyboard[0..13]`, one bit for each key (R57) -/
  keyboard : Vector Byte 14
  /-- Idle or RunningFrame (60_exceptions.md R453) -/
  driver : DriverState
  /-- MODEL FIELD: the output events so far, in order (00_scope.md R17), log 10 -/
  output : List OutputEvent
  /-- MODEL FIELD: the answers the Tape oracle will give, in order (60_exceptions.md R472), log 9 -/
  tape : List TapeAnswer
  /-- MODEL FIELD: the host calls not yet made, in order (00_scope.md R9), log 8 -/
  calls : List HostCall
deriving DecidableEq, Repr

/-- Why the machine stops with a fault: never. "Exceptions: the core raises none. No instruction traps, faults or halts"
(00_scope.md R16; 60_exceptions.md R401), so no constructor exists, nothing raises one, and a run never stops here (log 16). -/
inductive Fault where
deriving DecidableEq, Repr

/-- Why the model refuses an instruction. -/
inductive Refusal where
  /-- Raised only by an arm of `exec` whose instruction has no meaning yet. Safe: the model stops where the hardware goes on.
  No arm raises it: every instruction has its meaning. -/
  | notModelled (mnemonic : String)
deriving DecidableEq, Repr

/-- What a step answers. -/
abbrev Result := Host.Outcome State Fault Refusal

/-- The state right after power-on (70_reset_and_hazards.md R500). PC is the reset vector read while no ROM is loaded, the
sentinel byte twice. -/
def State.reset : State where
  a := 0x00
  x := 0x00
  y := 0x00
  sp := 0xFF
  p := 0x24
  pc := Config.unmappedReadByte ++ Config.unmappedReadByte
  cycleTime := 0
  irqPending := false
  nmiPending := false
  bpKind := .none
  bpAddr := 0
  bpHit := false
  currentInstruction := 0x00
  ram := []
  osRom := none
  pagedRoms := Vector.replicate 16 none
  page := 0
  sheila := Vector.replicate 16 0
  intStatus := 0x02
  enableMask := 0x00
  scanline := 0
  cassetteCounter := 0
  dataShiftHasData := false
  keyboard := Vector.replicate 14 0
  driver := .idle
  output := []
  tape := []
  calls := []

/-- `A <- v`. -/
def State.setA (s : State) (v : Byte) : State := { s with a := v }

/-- `X <- v`. -/
def State.setX (s : State) (v : Byte) : State := { s with x := v }

/-- `Y <- v`. -/
def State.setY (s : State) (v : Byte) : State := { s with y := v }

/-- `S <- v`. -/
def State.setSp (s : State) (v : Byte) : State := { s with sp := v }

/-- `P <- v`. -/
def State.setP (s : State) (v : Byte) : State := { s with p := v }

/-- `PC <- v`. -/
def State.setPc (s : State) (v : Word) : State := { s with pc := v }

/-- `cycle_time <- n`. -/
def State.setCycleTime (s : State) (n : Nat) : State := { s with cycleTime := n }

/-- `irq_pending <- b`: `assert_irq()` and `clear_irq()` (60_exceptions.md R471). -/
def State.setIrq (s : State) (b : Bool) : State := { s with irqPending := b }

/-- `nmi_pending <- b`. -/
def State.setNmi (s : State) (b : Bool) : State := { s with nmiPending := b }

/-- `bp_kind <- k; bp_addr <- v`. -/
def State.setBreakpoint (s : State) (k : BreakpointKind) (v : Word) : State := { s with bpKind := k, bpAddr := v }

/-- `bp_hit <- b`. -/
def State.setBpHit (s : State) (b : Bool) : State := { s with bpHit := b }

/-- `current_instruction <- v`. -/
def State.setCurrent (s : State) (v : Byte) : State := { s with currentInstruction := v }

/-- RAM becomes `m`. -/
def State.setRam (s : State) (m : List Host.Cell) : State := { s with ram := m }

/-- The OS ROM becomes `r`. -/
def State.setOsRom (s : State) (r : Option RomImage) : State := { s with osRom := r }

/-- The paged banks become `r`. -/
def State.setPagedRoms (s : State) (r : Vector (Option RomImage) 16) : State := { s with pagedRoms := r }

/-- `page <- v`. -/
def State.setPage (s : State) (v : BitVec 4) : State := { s with page := v }

/-- `sheila[k] <- v`. -/
def State.setSheila (s : State) (k : Fin 16) (v : Byte) : State := { s with sheila := s.sheila.set k v }

/-- `int_status <- v`. -/
def State.setIntStatus (s : State) (v : Byte) : State := { s with intStatus := v }

/-- `interrupt_enable_mask <- v`. -/
def State.setEnableMask (s : State) (v : Byte) : State := { s with enableMask := v }

/-- `scanline <- n`. -/
def State.setScanline (s : State) (n : Nat) : State := { s with scanline := n }

/-- `cassette_scanline_counter <- n`. -/
def State.setCassetteCounter (s : State) (n : Nat) : State := { s with cassetteCounter := n }

/-- `data_shift_has_data <- b`. -/
def State.setHasData (s : State) (b : Bool) : State := { s with dataShiftHasData := b }

/-- The keyboard becomes `k`. -/
def State.setKeyboard (s : State) (k : Vector Byte 14) : State := { s with keyboard := k }

/-- The driver state becomes `d`. -/
def State.setDriver (s : State) (d : DriverState) : State := { s with driver := d }

/-- Record the output events `e`, in order, after those recorded. -/
def State.emit (s : State) (e : List OutputEvent) : State := { s with output := s.output ++ e }

/-- The answers still to come become `t`. -/
def State.setTape (s : State) (t : List TapeAnswer) : State := { s with tape := t }

/-- The host calls still to come become `c`. -/
def State.setCalls (s : State) (c : List HostCall) : State := { s with calls := c }

end Sys2Proof.Machine
end

