-- ==== Sys2Proof/Machine/Flags.lean ====
section
/-! DEFINITION. The flags of P (10_state.md R33) and every result and flag computation of the instruction set: addition,
subtraction, compare (43_arithmetic.md), BIT (44_logic.md), shifts and rotates (45_shift_incdec.md). -/

namespace Sys2Proof.Machine

/-- The bits of P (00_scope.md R14). -/
inductive Flag where
  | c | z | i | d | b | u | v | n
deriving DecidableEq, Repr

/-- The place of a flag in P (10_state.md R33). -/
def flagBit : Flag → Nat
  | .c => 0
  | .z => 1
  | .i => 2
  | .d => 3
  | .b => 4
  | .u => 5
  | .v => 6
  | .n => 7

/-- `v[k] <- b`, no other bit changed. -/
def putBit (v : Byte) (k : Nat) (b : Bool) : Byte :=
  if b then v ||| BitVec.twoPow 8 k else v &&& ~~~(BitVec.twoPow 8 k)

/-- `P.F`. -/
def getFlag (p : Byte) (f : Flag) : Bool := p.getLsbD (flagBit f)

/-- `P.F <- b`, "writes that bit only" (R14). -/
def putFlag (p : Byte) (f : Flag) (b : Bool) : Byte := putBit p (flagBit f) b

/-- `SetNZ(v)` on P (R14). -/
def setNZ (v p : Byte) : Byte := putFlag (putFlag p .n v.msb) .z (v == 0)

/-- What an ALU operation gives: the value and the flags N, V, Z, C. -/
structure AluResult where
  val : Byte
  n : Bool
  v : Bool
  z : Bool
  c : Bool
deriving DecidableEq, Repr

/-- P with N, V, Z and C of an ALU result. -/
def AluResult.flags (r : AluResult) (p : Byte) : Byte :=
  putFlag (putFlag (putFlag (putFlag p .n r.n) .v r.v) .z r.z) .c r.c

/-- The overflow bit of an addition: "operands of equal sign, result of the other sign" (43_arithmetic.md R221). -/
def addOverflow (a m res : Byte) : Bool := (~~~(a ^^^ m) &&& (a ^^^ res)).msb

/-- The overflow bit of a subtraction: "operands of different sign, result sign differs from A" (R224). -/
def subOverflow (a m res : Byte) : Bool := ((a ^^^ m) &&& (a ^^^ res)).msb

/-- AdcBinary (R221). -/
def adcBinary (a m : Byte) (c : Bool) : AluResult :=
  let sum := a.toNat + m.toNat + c.toNat
  let res := BitVec.ofNat 8 sum
  { val := res, n := res.msb, v := addOverflow a m res, z := res == 0, c := decide (sum > 0xFF) }

/-- The low part of a decimal addition: the low nibbles' sum after the threshold test (R222). -/
def adcLow (a m : Byte) (c : Bool) : Nat :=
  let al := a.toNat % 16 + m.toNat % 16 + c.toNat
  if al ≥ 0x0A then (al + 0x06) % 16 + 0x10 else al

/-- `t0` of AdcDecimal: the high nibbles plus the corrected low part (R222). -/
def adcHigh (a m : Byte) (c : Bool) : Nat :=
  (a.toNat - a.toNat % 16) + (m.toNat - m.toNat % 16) + adcLow a m c

/-- AdcDecimal (R222), with the flags of R226 at the setting `nmos`. -/
def adcDecimal (setting : DecimalFlags) (a m : Byte) (c : Bool) : AluResult :=
  let bin := adcBinary a m c
  let t0 := adcHigh a m c
  let t := if t0 ≥ 0xA0 then t0 + 0x60 else t0
  let low := BitVec.ofNat 8 t0
  match setting with
  | .doc => { bin with val := BitVec.ofNat 8 t }
  | .nmos => { val := BitVec.ofNat 8 t, n := low.msb, v := addOverflow a m low, z := bin.z, c := decide (t0 ≥ 0xA0) }

/-- The addition of ADC: `P.D` selects the algorithm (R220). -/
def adc (d : Bool) (a m : Byte) (c : Bool) : AluResult :=
  if d then adcDecimal decimalFlags a m c else adcBinary a m c

/-- SbcBinary (R224). -/
def sbcBinary (a m : Byte) (c : Bool) : AluResult :=
  let diff : Int := (a.toNat : Int) - m.toNat - (1 - c.toNat)
  let res := BitVec.ofInt 8 diff
  { val := res, n := res.msb, v := subOverflow a m res, z := res == 0, c := decide (diff ≥ 0) }

/-- The low part of a decimal subtraction (R225). -/
def sbcLow (a m : Byte) (c : Bool) : Int :=
  let al : Int := ((a.toNat % 16 : Nat) : Int) - ((m.toNat % 16 : Nat) : Int) + c.toNat - 1
  if al < 0 then (al - 0x06) % 16 - 0x10 else al

/-- SbcDecimal (R225): the value corrected, the four flags those of the binary difference. -/
def sbcDecimal (a m : Byte) (c : Bool) : AluResult :=
  let t : Int := ((a.toNat - a.toNat % 16 : Nat) : Int) - ((m.toNat - m.toNat % 16 : Nat) : Int) + sbcLow a m c
  let t := if t < 0 then t - 0x60 else t
  { sbcBinary a m c with val := BitVec.ofInt 8 t }

/-- The subtraction of SBC: `P.D` selects the algorithm (R223). -/
def sbc (d : Bool) (a m : Byte) (c : Bool) : AluResult :=
  if d then sbcDecimal a m c else sbcBinary a m c

/-- P after `Compare(R, M)` (R227), V written or not by the switch. -/
def compareFlags (writesV : Bool) (r m p : Byte) : Byte :=
  let diff : Int := (r.toNat : Int) - m.toNat
  let res := BitVec.ofInt 8 diff
  let p := setNZ res (putFlag p .c (decide (diff ≥ 0)))
  if writesV then putFlag p .v (subOverflow r m res) else p

/-- P after BIT of the operand `m` with A (44_logic.md R253). -/
def bitFlags (a m p : Byte) : Byte :=
  putFlag (putFlag (putFlag p .n (m.getLsbD 7)) .v (m.getLsbD 6)) .z ((a &&& m) == 0)

/-- ASL's `f`: the result and P with C written (45_shift_incdec.md R271). -/
def aslFn (m p : Byte) : Byte × Byte := (m <<< 1, putFlag p .c (m.getLsbD 7))

/-- LSR's `f` (R272). -/
def lsrFn (m p : Byte) : Byte × Byte := (m >>> 1, putFlag p .c (m.getLsbD 0))

/-- ROL's `f`: the old C "feeds the vacated bit" (R273). -/
def rolFn (m p : Byte) : Byte × Byte := (putBit (m <<< 1) 0 (getFlag p .c), putFlag p .c (m.getLsbD 7))

/-- ROR's `f` (R274). -/
def rorFn (m p : Byte) : Byte × Byte := (putBit (m >>> 1) 7 (getFlag p .c), putFlag p .c (m.getLsbD 0))

/-- INC's `f`, which writes no C (R275). -/
def incFn (m p : Byte) : Byte × Byte := (m + 1, p)

/-- DEC's `f`, which writes no C (R276). -/
def decFn (m p : Byte) : Byte × Byte := (m - 1, p)

end Sys2Proof.Machine
end

