-- ==== Sys2Proof/Machine/Memory.lean ====
section
/-! DEFINITION. Memory as a list of (address, byte) cells in one canonical form: addresses strictly rising. RAM lists the bytes
written since power-on, an unlisted one being INITIAL_RAM's (10_state.md R47); a ROM image lists its nonzero bytes. -/

namespace Sys2Proof.Machine

/-- The byte listed at address `a`. -/
def Memory.get? : List Host.Cell → Nat → Option Byte
  | [], _ => none
  | (k, b) :: m, a => if k = a then some b else Memory.get? m a

/-- The list with the byte `v` at address `a`. -/
def Memory.set : List Host.Cell → Nat → Byte → List Host.Cell
  | [], a, v => [(a, v)]
  | (k, b) :: m, a, v =>
    if a < k then (a, v) :: (k, b) :: m
    else if a = k then (a, v) :: m
    else (k, b) :: Memory.set m a v

/-- Every address of the list is at least `lo` and below `bound`, and they rise strictly. -/
def Memory.wfFrom (bound : Nat) : Nat → List Host.Cell → Bool
  | _, [] => true
  | lo, (k, _) :: m => lo ≤ k && k < bound && Memory.wfFrom bound (k + 1) m

/-- The canonical form of a memory with addresses below `bound`. -/
def Memory.wf (bound : Nat) (m : List Host.Cell) : Bool := Memory.wfFrom bound 0 m

/-- The byte of a ROM image at an offset. -/
def Rom.get (r : RomImage) (off : Nat) : Byte := (Memory.get? r off).getD 0

/-- The canonical form of a ROM image: offsets within 16 KiB, strictly rising, no zero byte listed. -/
def Rom.wf (r : RomImage) : Bool := Memory.wf romSize r && r.all (fun c => c.2 != 0)

/-- The nonzero bytes of `src`, the first at offset `off`. -/
def Rom.ofBytesFrom : Nat → List Byte → RomImage
  | _, [] => []
  | off, b :: bs => if b = 0 then Rom.ofBytesFrom (off + 1) bs else (off, b) :: Rom.ofBytesFrom (off + 1) bs

/-- The ROM image whose bytes are `src`. -/
def Rom.ofBytes (src : List Byte) : RomImage := Rom.ofBytesFrom 0 src

/-- `ram[a]` (20_memory.md R76). A byte nothing has written since power-on is INITIAL_RAM's, a free value (log 1). -/
def ramByte (s : State) (a : Nat) : Byte := (Memory.get? s.ram a).getD (Config.initialRam a)

/-- A ROM's byte, or the sentinel where the ROM is absent (20_memory.md R77, R80, R81). -/
def romByte (r : Option RomImage) (off : Nat) : Byte :=
  match r with
  | some img => Rom.get img off
  | none => Config.unmappedReadByte

/-- A ROM in canonical form, or absent. -/
def romWf (r : Option RomImage) : Bool :=
  match r with
  | some img => Rom.wf img
  | none => true

/-- The memory of a state is in canonical form: RAM below 0x8000, and every present ROM. -/
def State.memoryWf (s : State) : Bool :=
  Memory.wf ramSize s.ram && romWf s.osRom && s.pagedRoms.all romWf

end Sys2Proof.Machine
end

