-- ==== Sys2Proof/Machine/Ula.lean ====
section
/-! DEFINITION. The ULA: interrupt controller (60_exceptions.md section 3) and peripheral register file (section 4). A read is
split into its value and its side effect; both belong to one access. -/

namespace Sys2Proof.Machine

/-- The pending and enabled conditions: `int_status & interrupt_enable_mask & 0x7C` (R422). -/
def pendingEnabled (s : State) : Byte := s.intStatus &&& s.enableMask &&& 0x7C

/-- `UpdateIRQ()` (R422). -/
def updateIrq (s : State) : State := s.setIrq (pendingEnabled s != 0)

/-- `int_status[b] <- v`. -/
def putStatus (b : Nat) (v : Bool) (s : State) : State := s.setIntStatus (putBit s.intStatus b v)

/-- `Raise(b)` (R423). -/
def raiseCondition (b : Nat) (s : State) : State := updateIrq (putStatus b true s)

/-- The register an address of the peripheral window selects, `addr[3:0]` (R426). -/
def ulaOffset (a : Word) : Fin 16 := Fin.ofNat 16 a.toNat

/-- The value a read of offset 0 returns (R428). -/
def statusValue (s : State) : Byte :=
  (s.intStatus &&& 0x7E) ||| (if pendingEnabled s != 0 then 0x01 else 0x00) ||| 0x80

/-- The OS-ROM byte at an address of 0xC000..0xFFFF (20_memory.md R77). -/
def osRomByte (s : State) (a : Word) : Byte := romByte s.osRom (a.toNat - 0xC000)

/-- The value a read of a peripheral address returns (R427, R428, R429, R435, R436). -/
def ulaValue (a : Word) (s : State) : Byte :=
  let off := ulaOffset a
  if off = 0 then statusValue s
  else if off.val % 2 = 1 then osRomByte s a
  else s.sheila[off]

/-- The side effect of a read of a peripheral register: offset 0 clears the power-on bit (R428), offset 4 the receive bit
(R429); every other read has none (20_memory.md R88). -/
def ulaReadEffect (off : Fin 16) (s : State) : State :=
  if off = 0 then putStatus 1 false s
  else if off = 4 then updateIrq (putStatus 4 false s)
  else s

/-- The display mode, `sheila[7][5:3]` (R434, 10_state.md R58). -/
def videoMode (control : Byte) : BitVec 3 := control.extractLsb' 3 3

/-- The cassette comms mode, `sheila[7][2:1]` (R463). -/
def commsMode (control : Byte) : BitVec 2 := control.extractLsb' 1 2

/-- The 8 palette bytes, `sheila[8..15]` (R437). -/
def paletteBytes (s : State) : Vector Byte 8 :=
  #v[s.sheila[8], s.sheila[9], s.sheila[10], s.sheila[11], s.sheila[12], s.sheila[13], s.sheila[14], s.sheila[15]]

/-- The 16 `set_color` calls of `EmitPalette()`, in increasing order (R438). -/
def paletteCalls (s : State) : List OutputEvent :=
  (List.range 16).map fun l =>
    let logical := Fin.ofNat 16 l
    .videoSetColor logical (Config.paletteDecode (videoMode s.sheila[7]) (paletteBytes s) logical)

/-- `EmitPalette()` (R438). -/
def emitPalette (s : State) : State := s.emit (paletteCalls s)

/-- Write of offset 0 (R421). -/
def writeEnable (v : Byte) (s : State) : State := updateIrq ((s.setSheila 0 v).setEnableMask v)

/-- WriteData, offset 4 (R433). -/
def writeData (v : Byte) (s : State) : State := updateIrq (putStatus 5 false ((s.setSheila 4 v).setHasData true))

/-- The page after a write of `v` to offset 5, under the paging restriction (R430, 20_memory.md R90). -/
def nextPage (page : BitVec 4) (v : Byte) : BitVec 4 :=
  let new := v.extractLsb' 0 4
  if restrictedPage page && new.toNat < 8 then page else new

/-- `int_status` after the acknowledge bits 4, 5, 6 of a write of `v` to offset 5 (R430). -/
def acknowledged (status v : Byte) : Byte :=
  let st := if v.getLsbD 4 then putBit status 2 false else status
  let st := if v.getLsbD 5 then putBit st 3 false else st
  if v.getLsbD 6 then putBit st 6 false else st

/-- WritePage, offset 5 (R430). -/
def writePage (v : Byte) (s : State) : State :=
  updateIrq (((s.setSheila 5 v).setPage (nextPage s.page v)).setIntStatus (acknowledged s.intStatus v))

/-- WriteControl, offset 7 (R434). -/
def writeControl (v : Byte) (s : State) : State :=
  let old := s.sheila[7]
  let s := s.setSheila 7 v
  let s := if videoMode v ≠ videoMode old then emitPalette (s.emit [.videoSetMode (videoMode v)]) else s
  if commsMode old ≠ 2 ∧ commsMode v = 2 then raiseCondition 5 (s.setHasData false) else s

/-- A write of a peripheral register (R427). -/
def ulaWrite (off : Fin 16) (v : Byte) (s : State) : State :=
  match off.val with
  | 0 => writeEnable v s
  | 4 => writeData v s
  | 5 => writePage v s
  | 7 => writeControl v s
  | k => if 8 ≤ k then emitPalette (s.setSheila off v) else s.setSheila off v

end Sys2Proof.Machine
end

