-- ==== Sys2Proof/Machine/Bus.lean ====
section
/-! DEFINITION. The machine's address dispatch and the memory-access contract (20_memory.md R70 to R82). -/

namespace Sys2Proof.Machine

/-- The regions of the address space (R73). -/
inductive Region where
  | ram
  | pagedRom
  | osRom
  | peripheral
deriving DecidableEq, Repr

/-- The region of an address (R73). -/
def regionOf (a : Word) : Region :=
  if a.toNat < 0x8000 then .ram
  else if a.toNat < 0xC000 then .pagedRom
  else if 0xFE00 ≤ a.toNat ∧ a.toNat < 0xFF00 then .peripheral
  else .osRom

/-- KeyboardRead: the rows whose address bit is 0, joined by OR (R79). -/
def keyboardRead (keys : Vector Byte 14) (a : Word) : Byte :=
  (List.range 14).foldl (fun v r => if a.getLsbD r then v else v ||| keys.getD r 0) 0

/-- PagedRead (R78). -/
def pagedRead (s : State) (a : Word) : Byte :=
  if s.page = keyboardPage then keyboardRead s.keyboard a
  else romByte s.pagedRoms[physicalBank s.page] (a.toNat - 0x8000)

/-- The byte `MachineRead(a)` returns (R74): the model's read of one byte. -/
def peek (s : State) (a : Word) : Byte :=
  match regionOf a with
  | .ram => ramByte s a.toNat
  | .pagedRom => pagedRead s a
  | .osRom => osRomByte s a
  | .peripheral => ulaValue a s

/-- The side effects of `MachineRead(a)`: "only the peripheral window has any" (R74, R88). -/
def readEffect (a : Word) (s : State) : State :=
  match regionOf a with
  | .peripheral => ulaReadEffect (ulaOffset a) s
  | _ => s

/-- `MachineRead(a)` (R74). -/
def machineRead (a : Word) (s : State) : Byte × State := (peek s a, readEffect a s)

/-- `MachineWrite(a, v)` (R75, R76): a write to a ROM region or to the paged window changes nothing. -/
def machineWrite (a : Word) (v : Byte) (s : State) : State :=
  match regionOf a with
  | .ram => s.setRam (Memory.set s.ram a.toNat v)
  | .peripheral => ulaWrite (ulaOffset a) v s
  | .pagedRom | .osRom => s

end Sys2Proof.Machine
end

