-- ==== Sys2Proof/Machine/Ops.lean ====
section
/-! DEFINITION. The shared operations: checked accesses (00_scope.md R15, 40_execution.md R150 to R154), fetch, the stack
(47_stack.md R320, R321), cycle charging, and interrupt entry and return (60_exceptions.md R410, 48_control_flow.md R354). -/

namespace Sys2Proof.Machine

/-- The breakpoint check after an access of the given kind (R150, R151): "fires after the access completes" (R152). -/
def checkBreakpoint (kind : BreakpointKind) (a : Word) (s : State) : State :=
  if s.bpKind = kind ∧ s.bpAddr = a then s.setBpHit true else s

/-- `Read(a)`: one checked read (00_scope.md R15). -/
def read (a : Word) (s : State) : Byte × State :=
  let r := machineRead a s
  (r.1, checkBreakpoint .onRead a r.2)

/-- `Write(a, v)`: one checked write (R15). -/
def write (a : Word) (v : Byte) (s : State) : State :=
  checkBreakpoint .onWrite a (machineWrite a v s)

/-- A 16-bit value from its low byte at `lo` and its high byte at `hi`, the low byte read first (20_memory.md R85). -/
def readPair (lo hi : Word) (s : State) : Word × State :=
  let l := read lo s
  let h := read hi l.2
  (wordOf l.1 h.1, h.2)

/-- `Read16(a)` (00_scope.md R15). -/
def read16 (a : Word) (s : State) : Word × State := readPair a (a + 1) s

/-- `Charge(n)` (R15). -/
def charge (n : Nat) (s : State) : State := s.setCycleTime (s.cycleTime + n)

/-- `Fetch()` (R15): one checked read at PC, then PC plus 1, wrapping at 16 bits (10_state.md R32). -/
def fetchByte (s : State) : Byte × State :=
  let r := read s.pc s
  (r.1, r.2.setPc (r.2.pc + 1))

/-- The opcode fetch, which records the opcode in `current_instruction`, and the operand fetches (40_execution.md R145,
30_encoding.md R111). Every operand fetch of an instruction comes before its other accesses (41_addressing.md R188,
20_memory.md R94), so the instruction is known whole before it acts (log 5). -/
def fetchInstr (s : State) : Instr × State :=
  let o := fetchByte s
  let s₁ := o.2.setCurrent o.1
  match operandCount o.1 with
  | 0 => (decodeOpcode o.1 0 0, s₁)
  | 1 =>
    let b := fetchByte s₁
    (decodeOpcode o.1 b.1 0, b.2)
  | _ =>
    let b := fetchByte s₁
    let c := fetchByte b.2
    (decodeOpcode o.1 b.1 c.1, c.2)

/-- The address of the stack byte that S names: "the 256 bytes at address `0x0100 + s`" (10_state.md R31). -/
def stackAddr (sp : Byte) : Word := wordOf sp 0x01

/-- `Push(v)` (47_stack.md R320). -/
def push (v : Byte) (s : State) : State :=
  let s := write (stackAddr s.sp) v s
  s.setSp (s.sp - 1)

/-- `Pull()` (R321). -/
def pull (s : State) : Byte × State :=
  let s := s.setSp (s.sp + 1)
  read (stackAddr s.sp) s

/-- A 16-bit push: "push high byte before low byte" (20_memory.md R85). -/
def pushWord (w : Word) (s : State) : State := push (loByte w) (push (hiByte w) s)

/-- A 16-bit pull: the low byte first (R321). -/
def pullWord (s : State) : Word × State :=
  let lo := pull s
  let hi := pull lo.2
  (wordOf lo.1 hi.1, hi.2)

/-- The byte a push of P writes: bit 5 set, and bit 4 as P has it (10_state.md R36; 60_exceptions.md R410). -/
def pushedStatus (p : Byte) : Byte := putFlag p .u true

/-- Taking an exception: push the return address `ret`, write B, push P with bit 5 set, set I, load PC from the vector, charge
7 cycles. `brk` is the B bit: 0 for NMI and IRQ (60_exceptions.md R410), 1 for BRK (48_control_flow.md R353). -/
def takeException (vector ret : Word) (brk : Bool) (s : State) : State :=
  let s := pushWord ret s
  let s := s.setP (putFlag s.p .b brk)
  let s := push (pushedStatus s.p) s
  let s := s.setP (putFlag s.p .i true)
  let v := read16 vector s
  charge interruptCycles (v.2.setPc v.1)

/-- `EnterInterrupt(vector)` (R410): PC is pushed "pre-decremented by 1". -/
def enterInterrupt (vector : Word) (s : State) : State := takeException vector (s.pc - 1) false s

/-- The return of RTI: P verbatim, then the return address plus 1 (48_control_flow.md R354). -/
def returnFromInterrupt (s : State) : State :=
  let p := pull s
  let s := p.2.setP p.1
  let w := pullWord s
  w.2.setPc (w.1 + 1)

end Sys2Proof.Machine
end

