-- ==== Sys2Proof/Machine/Operands.lean ====
section
/-! DEFINITION. Effective addresses, operand values and cycle penalties (spec/41_addressing.md). The operand bytes of an
instruction are in its syntax, already fetched. -/

namespace Sys2Proof.Machine

/-- What an addressing mode gives: EA, whether the index crossed a page, and the state after its pointer reads. -/
structure Addressed where
  ea : Word
  crossed : Bool
  st : State

/-- A zero-page address, `zext_16(z)` (R172). -/
def zeroPage (z : Byte) : Word := wordOf z 0x00

/-- `crossed(base, idx)`: the low-byte addition overflows past 0xFF (R170). -/
def pageCrossed (base : Word) (idx : Byte) : Bool := decide ((loByte base).toNat + idx.toNat > 0xFF)

/-- `u16(base + idx)` with the index as an unsigned 8-bit value (R176). -/
def indexed (base : Word) (idx : Byte) : Word := base + idx.setWidth 16

/-- A zero-page pointer at `z`, its high byte from `u8(z + 1)` (R178, R179). -/
def readPointer (z : Byte) (s : State) : Word × State := readPair (zeroPage z) (zeroPage (z + 1)) s

/-- `Address(mode)` (R172 to R179, R188). -/
def address (m : AddrMode) (s : State) : Addressed :=
  match m with
  | .zp z => ⟨zeroPage z, false, s⟩
  | .zpx z => ⟨zeroPage (z + s.x), false, s⟩
  | .zpy z => ⟨zeroPage (z + s.y), false, s⟩
  | .abs w => ⟨w, false, s⟩
  | .abx w => ⟨indexed w s.x, pageCrossed w s.x, s⟩
  | .aby w => ⟨indexed w s.y, pageCrossed w s.y, s⟩
  | .izx z =>
    let p := readPointer (z + s.x) s
    ⟨p.1, false, p.2⟩
  | .izy z =>
    let p := readPointer z s
    ⟨indexed p.1 s.y, pageCrossed p.1 s.y, p.2⟩

/-- What an operand read gives: its value, whether the index crossed a page, and the state after its accesses. -/
structure Operated where
  val : Byte
  crossed : Bool
  st : State

/-- `ReadOperand(mode)` (R171, R188). -/
def readOperand (x : Source) (s : State) : Operated :=
  match x with
  | .imm i => ⟨i, false, s⟩
  | .mem m =>
    let e := address m s
    let r := read e.ea e.st
    ⟨r.1, e.crossed, r.2⟩

/-- The cost of a read-class instruction: its base cost, plus 1 exactly when the index crossed a page (R184). -/
def readCost (base : Nat) (crossed : Bool) : Nat := base + crossed.toNat

/-- The modes whose index can cross a page (R184). -/
def pageIndexed : AddrMode → Bool
  | .abx _ | .aby _ | .izy _ => true
  | .zp _ | .zpx _ | .zpy _ | .abs _ | .izx _ => false

/-- The cost of a write-class instruction: the read class's at `doc`, one fixed extra cycle for the indexed modes at `nmos`
(R185, 30_encoding.md R115). -/
def writeCost (timing : StoreTiming) (base : Nat) (m : AddrMode) (crossed : Bool) : Nat :=
  match timing with
  | .doc => readCost base crossed
  | .nmos => base + (pageIndexed m).toNat

/-- The address of the high byte of a JMP indirect pointer (R183): in the pointer's own page when `wrap`. -/
def pointerHigh (wrap : Bool) (ptr : Word) : Word :=
  if wrap then wordOf (loByte ptr + 1) (hiByte ptr) else ptr + 1

/-- The target of JMP indirect (R183). -/
def readTarget (ptr : Word) (s : State) : Word × State := readPair ptr (pointerHigh jmpIndirectPageWrap ptr) s

/-- The target of a branch, `u16(PC + sext_8(d))` (R182). -/
def branchTarget (next : Word) (d : Byte) : Word := next + d.signExtend 16

/-- The general registers (10_state.md R30). -/
inductive Reg where
  | a | x | y
deriving DecidableEq, Repr

/-- The value of a general register. -/
def getReg (r : Reg) (s : State) : Byte :=
  match r with
  | .a => s.a
  | .x => s.x
  | .y => s.y

/-- `R <- v`. -/
def setReg (r : Reg) (v : Byte) (s : State) : State :=
  match r with
  | .a => s.setA v
  | .x => s.setX v
  | .y => s.setY v

/-- `R <- v; SetNZ(v)`. -/
def setRegNZ (r : Reg) (v : Byte) (s : State) : State :=
  let s := setReg r v s
  s.setP (setNZ v s.p)

end Sys2Proof.Machine
end

