-- ==== Sys2Proof/Machine/Arithmetic.lean ====
section
/-! DEFINITION. Arithmetic and compare (spec/43_arithmetic.md): the meaning of each opcode of the family. A meaning starts in the state after
the instruction's bytes were fetched, PC past them; the number is the base cost of 30_encoding.md R114. -/

namespace Sys2Proof.Machine

/-- ADC (R220). -/
def addWithCarry (src : Source) (base : Nat) (s : State) : State :=
  let o := readOperand src s
  let t := o.st
  let r := adc (getFlag t.p .d) t.a o.val (getFlag t.p .c)
  charge (readCost base o.crossed) ((t.setA r.val).setP (r.flags t.p))

/-- SBC (R223). -/
def subtractWithBorrow (src : Source) (base : Nat) (s : State) : State :=
  let o := readOperand src s
  let t := o.st
  let r := sbc (getFlag t.p .d) t.a o.val (getFlag t.p .c)
  charge (readCost base o.crossed) ((t.setA r.val).setP (r.flags t.p))

/-- CMP, CPX, CPY: "subtraction without writeback" (R227 to R230). -/
def compare (r : Reg) (src : Source) (base : Nat) (s : State) : State :=
  let o := readOperand src s
  let t := o.st
  charge (readCost base o.crossed) (t.setP (compareFlags compareWritesV (getReg r t) o.val t.p))

/-- 0x61 ADC (zero page,X) (R220). -/
def execAdcIzx (z : Byte) (s : State) : Result := .next (addWithCarry (.mem (.izx z)) 6 s)

/-- 0x65 ADC zero page (R220). -/
def execAdcZp (z : Byte) (s : State) : Result := .next (addWithCarry (.mem (.zp z)) 3 s)

/-- 0x69 ADC immediate (R220). -/
def execAdcImm (i : Byte) (s : State) : Result := .next (addWithCarry (.imm i) 2 s)

/-- 0x6D ADC absolute (R220). -/
def execAdcAbs (w : Word) (s : State) : Result := .next (addWithCarry (.mem (.abs w)) 4 s)

/-- 0x71 ADC (zero page),Y (R220). -/
def execAdcIzy (z : Byte) (s : State) : Result := .next (addWithCarry (.mem (.izy z)) 5 s)

/-- 0x75 ADC zero page,X (R220). -/
def execAdcZpx (z : Byte) (s : State) : Result := .next (addWithCarry (.mem (.zpx z)) 4 s)

/-- 0x79 ADC absolute,Y (R220). -/
def execAdcAby (w : Word) (s : State) : Result := .next (addWithCarry (.mem (.aby w)) 4 s)

/-- 0x7D ADC absolute,X (R220). -/
def execAdcAbx (w : Word) (s : State) : Result := .next (addWithCarry (.mem (.abx w)) 4 s)

/-- 0xE1 SBC (zero page,X) (R223). -/
def execSbcIzx (z : Byte) (s : State) : Result := .next (subtractWithBorrow (.mem (.izx z)) 6 s)

/-- 0xE5 SBC zero page (R223). -/
def execSbcZp (z : Byte) (s : State) : Result := .next (subtractWithBorrow (.mem (.zp z)) 3 s)

/-- 0xE9 SBC immediate (R223). -/
def execSbcImm (i : Byte) (s : State) : Result := .next (subtractWithBorrow (.imm i) 2 s)

/-- 0xED SBC absolute (R223). -/
def execSbcAbs (w : Word) (s : State) : Result := .next (subtractWithBorrow (.mem (.abs w)) 4 s)

/-- 0xF1 SBC (zero page),Y (R223). -/
def execSbcIzy (z : Byte) (s : State) : Result := .next (subtractWithBorrow (.mem (.izy z)) 5 s)

/-- 0xF5 SBC zero page,X (R223). -/
def execSbcZpx (z : Byte) (s : State) : Result := .next (subtractWithBorrow (.mem (.zpx z)) 4 s)

/-- 0xF9 SBC absolute,Y (R223). -/
def execSbcAby (w : Word) (s : State) : Result := .next (subtractWithBorrow (.mem (.aby w)) 4 s)

/-- 0xFD SBC absolute,X (R223). -/
def execSbcAbx (w : Word) (s : State) : Result := .next (subtractWithBorrow (.mem (.abx w)) 4 s)

/-- 0xC1 CMP (zero page,X) (R228). -/
def execCmpIzx (z : Byte) (s : State) : Result := .next (compare .a (.mem (.izx z)) 6 s)

/-- 0xC5 CMP zero page (R228). -/
def execCmpZp (z : Byte) (s : State) : Result := .next (compare .a (.mem (.zp z)) 3 s)

/-- 0xC9 CMP immediate (R228). -/
def execCmpImm (i : Byte) (s : State) : Result := .next (compare .a (.imm i) 2 s)

/-- 0xCD CMP absolute (R228). -/
def execCmpAbs (w : Word) (s : State) : Result := .next (compare .a (.mem (.abs w)) 4 s)

/-- 0xD1 CMP (zero page),Y (R228). -/
def execCmpIzy (z : Byte) (s : State) : Result := .next (compare .a (.mem (.izy z)) 5 s)

/-- 0xD5 CMP zero page,X (R228). -/
def execCmpZpx (z : Byte) (s : State) : Result := .next (compare .a (.mem (.zpx z)) 4 s)

/-- 0xD9 CMP absolute,Y (R228). -/
def execCmpAby (w : Word) (s : State) : Result := .next (compare .a (.mem (.aby w)) 4 s)

/-- 0xDD CMP absolute,X (R228). -/
def execCmpAbx (w : Word) (s : State) : Result := .next (compare .a (.mem (.abx w)) 4 s)

/-- 0xE0 CPX immediate (R229). -/
def execCpxImm (i : Byte) (s : State) : Result := .next (compare .x (.imm i) 2 s)

/-- 0xE4 CPX zero page (R229). -/
def execCpxZp (z : Byte) (s : State) : Result := .next (compare .x (.mem (.zp z)) 3 s)

/-- 0xEC CPX absolute (R229). -/
def execCpxAbs (w : Word) (s : State) : Result := .next (compare .x (.mem (.abs w)) 4 s)

/-- 0xC0 CPY immediate (R230). -/
def execCpyImm (i : Byte) (s : State) : Result := .next (compare .y (.imm i) 2 s)

/-- 0xC4 CPY zero page (R230). -/
def execCpyZp (z : Byte) (s : State) : Result := .next (compare .y (.mem (.zp z)) 3 s)

/-- 0xCC CPY absolute (R230). -/
def execCpyAbs (w : Word) (s : State) : Result := .next (compare .y (.mem (.abs w)) 4 s)

end Sys2Proof.Machine
end

