-- ==== Sys2Proof/Machine/ControlFlow.lean ====
section
/-! DEFINITION. Branches, jumps, subroutines, BRK and RTI (spec/48_control_flow.md): the meaning of each opcode of the family. A meaning starts in the state after
the instruction's bytes were fetched, PC past them; the number is the base cost of 30_encoding.md R114. -/

namespace Sys2Proof.Machine

/-- `Branch(op)`: taken when the flag equals the polarity; 2 cycles, 3 taken, 4 taken to another page than that of the
instruction after the branch (R340). -/
def branch (f : Flag) (polarity : Bool) (d : Byte) (s : State) : State :=
  let next := s.pc
  let target := branchTarget next d
  if getFlag s.p f = polarity then charge (if hiByte target = hiByte next then 3 else 4) (s.setPc target)
  else charge 2 s

/-- JMP indirect (R350; 41_addressing.md R183). -/
def jumpIndirect (ptr : Word) (cost : Nat) (s : State) : State :=
  let t := readTarget ptr s
  charge cost (t.2.setPc t.1)

/-- JSR: push the address of its own last byte, high byte first (R351). -/
def jumpSubroutine (target : Word) (cost : Nat) (s : State) : State :=
  charge cost ((pushWord (s.pc - 1) s).setPc target)

/-- RTS: "add 1 to the popped address" (R352). -/
def returnSubroutine (cost : Nat) (s : State) : State :=
  let w := pullWord s
  charge cost (w.2.setPc (w.1 + 1))

/-- BRK: the exception entry with B set, pushing the address of the opcode plus BRK_PUSH_OFFSET (R353). PC is the opcode's
address plus 1 here. -/
def softwareInterrupt (offset : Word) (s : State) : State :=
  takeException vectorIrq (s.pc - 1 + offset) true s

/-- 0x10 BPL (R341). -/
def execBpl (d : Byte) (s : State) : Result := .next (branch .n false d s)

/-- 0x30 BMI (R342). -/
def execBmi (d : Byte) (s : State) : Result := .next (branch .n true d s)

/-- 0x50 BVC (R343). -/
def execBvc (d : Byte) (s : State) : Result := .next (branch .v false d s)

/-- 0x70 BVS (R344). -/
def execBvs (d : Byte) (s : State) : Result := .next (branch .v true d s)

/-- 0x90 BCC (R345). -/
def execBcc (d : Byte) (s : State) : Result := .next (branch .c false d s)

/-- 0xB0 BCS (R346). -/
def execBcs (d : Byte) (s : State) : Result := .next (branch .c true d s)

/-- 0xD0 BNE (R347). -/
def execBne (d : Byte) (s : State) : Result := .next (branch .z false d s)

/-- 0xF0 BEQ (R348). -/
def execBeq (d : Byte) (s : State) : Result := .next (branch .z true d s)

/-- 0x4C JMP absolute (R349). -/
def execJmpAbs (w : Word) (s : State) : Result := .next (charge 3 (s.setPc w))

/-- 0x6C JMP absolute indirect (R350). -/
def execJmpInd (w : Word) (s : State) : Result := .next (jumpIndirect w 5 s)

/-- 0x20 JSR absolute (R351). -/
def execJsr (w : Word) (s : State) : Result := .next (jumpSubroutine w 6 s)

/-- 0x60 RTS (R352). -/
def execRts (s : State) : Result := .next (returnSubroutine 6 s)

/-- 0x00 BRK (R353). -/
def execBrk (s : State) : Result := .next (softwareInterrupt brkPushOffset s)

/-- 0x40 RTI (R354). -/
def execRti (s : State) : Result := .next (charge 6 (returnFromInterrupt s))

end Sys2Proof.Machine
end

