-- ==== Sys2Proof/Machine/LoadStore.lean ====
section
/-! DEFINITION. Loads and stores (spec/42_load_store.md): the meaning of each opcode of the family. A meaning starts in the state after
the instruction's bytes were fetched, PC past them; the number is the base cost of 30_encoding.md R114. -/

namespace Sys2Proof.Machine

/-- A load: `R <- M; SetNZ(R)`, at the read class's cost (R200 to R203). -/
def load (r : Reg) (src : Source) (base : Nat) (s : State) : State :=
  let o := readOperand src s
  charge (readCost base o.crossed) (setRegNZ r o.val o.st)

/-- A store: one `Write(EA, R)`, no flag, at the write class's cost (R200, R204 to R206). -/
def store (r : Reg) (m : AddrMode) (base : Nat) (s : State) : State :=
  let e := address m s
  charge (writeCost indexedStoreTiming base m e.crossed) (write e.ea (getReg r e.st) e.st)

/-- 0xA1 LDA (zero page,X) (R201). -/
def execLdaIzx (z : Byte) (s : State) : Result := .next (load .a (.mem (.izx z)) 6 s)

/-- 0xA5 LDA zero page (R201). -/
def execLdaZp (z : Byte) (s : State) : Result := .next (load .a (.mem (.zp z)) 3 s)

/-- 0xA9 LDA immediate (R201). -/
def execLdaImm (i : Byte) (s : State) : Result := .next (load .a (.imm i) 2 s)

/-- 0xAD LDA absolute (R201). -/
def execLdaAbs (w : Word) (s : State) : Result := .next (load .a (.mem (.abs w)) 4 s)

/-- 0xB1 LDA (zero page),Y (R201). -/
def execLdaIzy (z : Byte) (s : State) : Result := .next (load .a (.mem (.izy z)) 5 s)

/-- 0xB5 LDA zero page,X (R201). -/
def execLdaZpx (z : Byte) (s : State) : Result := .next (load .a (.mem (.zpx z)) 4 s)

/-- 0xB9 LDA absolute,Y (R201). -/
def execLdaAby (w : Word) (s : State) : Result := .next (load .a (.mem (.aby w)) 4 s)

/-- 0xBD LDA absolute,X (R201). -/
def execLdaAbx (w : Word) (s : State) : Result := .next (load .a (.mem (.abx w)) 4 s)

/-- 0xA2 LDX immediate (R202). -/
def execLdxImm (i : Byte) (s : State) : Result := .next (load .x (.imm i) 2 s)

/-- 0xA6 LDX zero page (R202). -/
def execLdxZp (z : Byte) (s : State) : Result := .next (load .x (.mem (.zp z)) 3 s)

/-- 0xAE LDX absolute (R202). -/
def execLdxAbs (w : Word) (s : State) : Result := .next (load .x (.mem (.abs w)) 4 s)

/-- 0xB6 LDX zero page,Y (R202). -/
def execLdxZpy (z : Byte) (s : State) : Result := .next (load .x (.mem (.zpy z)) 4 s)

/-- 0xBE LDX absolute,Y (R202). -/
def execLdxAby (w : Word) (s : State) : Result := .next (load .x (.mem (.aby w)) 4 s)

/-- 0xA0 LDY immediate (R203). -/
def execLdyImm (i : Byte) (s : State) : Result := .next (load .y (.imm i) 2 s)

/-- 0xA4 LDY zero page (R203). -/
def execLdyZp (z : Byte) (s : State) : Result := .next (load .y (.mem (.zp z)) 3 s)

/-- 0xAC LDY absolute (R203). -/
def execLdyAbs (w : Word) (s : State) : Result := .next (load .y (.mem (.abs w)) 4 s)

/-- 0xB4 LDY zero page,X (R203). -/
def execLdyZpx (z : Byte) (s : State) : Result := .next (load .y (.mem (.zpx z)) 4 s)

/-- 0xBC LDY absolute,X (R203). -/
def execLdyAbx (w : Word) (s : State) : Result := .next (load .y (.mem (.abx w)) 4 s)

/-- 0x81 STA (zero page,X) (R204). -/
def execStaIzx (z : Byte) (s : State) : Result := .next (store .a (.izx z) 6 s)

/-- 0x85 STA zero page (R204). -/
def execStaZp (z : Byte) (s : State) : Result := .next (store .a (.zp z) 3 s)

/-- 0x8D STA absolute (R204). -/
def execStaAbs (w : Word) (s : State) : Result := .next (store .a (.abs w) 4 s)

/-- 0x91 STA (zero page),Y (R204). -/
def execStaIzy (z : Byte) (s : State) : Result := .next (store .a (.izy z) 5 s)

/-- 0x95 STA zero page,X (R204). -/
def execStaZpx (z : Byte) (s : State) : Result := .next (store .a (.zpx z) 4 s)

/-- 0x99 STA absolute,Y (R204). -/
def execStaAby (w : Word) (s : State) : Result := .next (store .a (.aby w) 4 s)

/-- 0x9D STA absolute,X (R204). -/
def execStaAbx (w : Word) (s : State) : Result := .next (store .a (.abx w) 4 s)

/-- 0x86 STX zero page (R205). -/
def execStxZp (z : Byte) (s : State) : Result := .next (store .x (.zp z) 3 s)

/-- 0x8E STX absolute (R205). -/
def execStxAbs (w : Word) (s : State) : Result := .next (store .x (.abs w) 4 s)

/-- 0x96 STX zero page,Y (R205). -/
def execStxZpy (z : Byte) (s : State) : Result := .next (store .x (.zpy z) 4 s)

/-- 0x84 STY zero page (R206). -/
def execStyZp (z : Byte) (s : State) : Result := .next (store .y (.zp z) 3 s)

/-- 0x8C STY absolute (R206). -/
def execStyAbs (w : Word) (s : State) : Result := .next (store .y (.abs w) 4 s)

/-- 0x94 STY zero page,X (R206). -/
def execStyZpx (z : Byte) (s : State) : Result := .next (store .y (.zpx z) 4 s)

end Sys2Proof.Machine
end

