-- ==== Sys2Proof/Machine/Logic.lean ====
section
/-! DEFINITION. Logical operations (spec/44_logic.md): the meaning of each opcode of the family. A meaning starts in the state after
the instruction's bytes were fetched, PC past them; the number is the base cost of 30_encoding.md R114. -/

namespace Sys2Proof.Machine

/-- AND, ORA, EOR: `A <- f(A, M); SetNZ(A)` (R250 to R252). -/
def logical (f : Byte → Byte → Byte) (src : Source) (base : Nat) (s : State) : State :=
  let o := readOperand src s
  charge (readCost base o.crossed) (setRegNZ .a (f o.st.a o.val) o.st)

/-- BIT: flags only (R253). -/
def bitTest (src : Source) (base : Nat) (s : State) : State :=
  let o := readOperand src s
  let t := o.st
  charge (readCost base o.crossed) (t.setP (bitFlags t.a o.val t.p))

/-- 0x21 AND (zero page,X) (R250). -/
def execAndIzx (z : Byte) (s : State) : Result := .next (logical (· &&& ·) (.mem (.izx z)) 6 s)

/-- 0x25 AND zero page (R250). -/
def execAndZp (z : Byte) (s : State) : Result := .next (logical (· &&& ·) (.mem (.zp z)) 3 s)

/-- 0x29 AND immediate (R250). -/
def execAndImm (i : Byte) (s : State) : Result := .next (logical (· &&& ·) (.imm i) 2 s)

/-- 0x2D AND absolute (R250). -/
def execAndAbs (w : Word) (s : State) : Result := .next (logical (· &&& ·) (.mem (.abs w)) 4 s)

/-- 0x31 AND (zero page),Y (R250). -/
def execAndIzy (z : Byte) (s : State) : Result := .next (logical (· &&& ·) (.mem (.izy z)) 5 s)

/-- 0x35 AND zero page,X (R250). -/
def execAndZpx (z : Byte) (s : State) : Result := .next (logical (· &&& ·) (.mem (.zpx z)) 4 s)

/-- 0x39 AND absolute,Y (R250). -/
def execAndAby (w : Word) (s : State) : Result := .next (logical (· &&& ·) (.mem (.aby w)) 4 s)

/-- 0x3D AND absolute,X (R250). -/
def execAndAbx (w : Word) (s : State) : Result := .next (logical (· &&& ·) (.mem (.abx w)) 4 s)

/-- 0x01 ORA (zero page,X) (R251). -/
def execOraIzx (z : Byte) (s : State) : Result := .next (logical (· ||| ·) (.mem (.izx z)) 6 s)

/-- 0x05 ORA zero page (R251). -/
def execOraZp (z : Byte) (s : State) : Result := .next (logical (· ||| ·) (.mem (.zp z)) 3 s)

/-- 0x09 ORA immediate (R251). -/
def execOraImm (i : Byte) (s : State) : Result := .next (logical (· ||| ·) (.imm i) 2 s)

/-- 0x0D ORA absolute (R251). -/
def execOraAbs (w : Word) (s : State) : Result := .next (logical (· ||| ·) (.mem (.abs w)) 4 s)

/-- 0x11 ORA (zero page),Y (R251). -/
def execOraIzy (z : Byte) (s : State) : Result := .next (logical (· ||| ·) (.mem (.izy z)) 5 s)

/-- 0x15 ORA zero page,X (R251). -/
def execOraZpx (z : Byte) (s : State) : Result := .next (logical (· ||| ·) (.mem (.zpx z)) 4 s)

/-- 0x19 ORA absolute,Y (R251). -/
def execOraAby (w : Word) (s : State) : Result := .next (logical (· ||| ·) (.mem (.aby w)) 4 s)

/-- 0x1D ORA absolute,X (R251). -/
def execOraAbx (w : Word) (s : State) : Result := .next (logical (· ||| ·) (.mem (.abx w)) 4 s)

/-- 0x41 EOR (zero page,X) (R252). -/
def execEorIzx (z : Byte) (s : State) : Result := .next (logical (· ^^^ ·) (.mem (.izx z)) 6 s)

/-- 0x45 EOR zero page (R252). -/
def execEorZp (z : Byte) (s : State) : Result := .next (logical (· ^^^ ·) (.mem (.zp z)) 3 s)

/-- 0x49 EOR immediate (R252). -/
def execEorImm (i : Byte) (s : State) : Result := .next (logical (· ^^^ ·) (.imm i) 2 s)

/-- 0x4D EOR absolute (R252). -/
def execEorAbs (w : Word) (s : State) : Result := .next (logical (· ^^^ ·) (.mem (.abs w)) 4 s)

/-- 0x51 EOR (zero page),Y (R252). -/
def execEorIzy (z : Byte) (s : State) : Result := .next (logical (· ^^^ ·) (.mem (.izy z)) 5 s)

/-- 0x55 EOR zero page,X (R252). -/
def execEorZpx (z : Byte) (s : State) : Result := .next (logical (· ^^^ ·) (.mem (.zpx z)) 4 s)

/-- 0x59 EOR absolute,Y (R252). -/
def execEorAby (w : Word) (s : State) : Result := .next (logical (· ^^^ ·) (.mem (.aby w)) 4 s)

/-- 0x5D EOR absolute,X (R252). -/
def execEorAbx (w : Word) (s : State) : Result := .next (logical (· ^^^ ·) (.mem (.abx w)) 4 s)

/-- 0x24 BIT zero page (R253). -/
def execBitZp (z : Byte) (s : State) : Result := .next (bitTest (.mem (.zp z)) 3 s)

/-- 0x2C BIT absolute (R253). -/
def execBitAbs (w : Word) (s : State) : Result := .next (bitTest (.mem (.abs w)) 4 s)

end Sys2Proof.Machine
end

