-- ==== Sys2Proof/Machine/RegisterFlag.lean ====
section
/-! DEFINITION. Register transfers, register increments, flag instructions, NOP (spec/46_register_flag.md): the meaning of each opcode of the family. A meaning starts in the state after
the instruction's bytes were fetched, PC past them; the number is the base cost of 30_encoding.md R114. -/

namespace Sys2Proof.Machine

/-- 0xAA TAX (R290). -/
def execTax (s : State) : Result := .next (charge 2 (setRegNZ .x s.a s))

/-- 0xA8 TAY (R291). -/
def execTay (s : State) : Result := .next (charge 2 (setRegNZ .y s.a s))

/-- 0x8A TXA (R292). -/
def execTxa (s : State) : Result := .next (charge 2 (setRegNZ .a s.x s))

/-- 0x98 TYA (R293). -/
def execTya (s : State) : Result := .next (charge 2 (setRegNZ .a s.y s))

/-- 0xBA TSX (R294). -/
def execTsx (s : State) : Result := .next (charge 2 (setRegNZ .x s.sp s))

/-- 0x9A TXS (R295). -/
def execTxs (s : State) : Result := .next (charge 2 (s.setSp s.x))

/-- 0xE8 INX (R296). -/
def execInx (s : State) : Result := .next (charge 2 (setRegNZ .x (s.x + 1) s))

/-- 0xC8 INY (R297). -/
def execIny (s : State) : Result := .next (charge 2 (setRegNZ .y (s.y + 1) s))

/-- 0xCA DEX (R298). -/
def execDex (s : State) : Result := .next (charge 2 (setRegNZ .x (s.x - 1) s))

/-- 0x88 DEY (R299). -/
def execDey (s : State) : Result := .next (charge 2 (setRegNZ .y (s.y - 1) s))

/-- 0x18 CLC (R300). -/
def execClc (s : State) : Result := .next (charge 2 (s.setP (putFlag s.p .c false)))

/-- 0x38 SEC (R301). -/
def execSec (s : State) : Result := .next (charge 2 (s.setP (putFlag s.p .c true)))

/-- 0x58 CLI (R302). -/
def execCli (s : State) : Result := .next (charge 2 (s.setP (putFlag s.p .i false)))

/-- 0x78 SEI (R303). -/
def execSei (s : State) : Result := .next (charge 2 (s.setP (putFlag s.p .i true)))

/-- 0xD8 CLD (R304). -/
def execCld (s : State) : Result := .next (charge 2 (s.setP (putFlag s.p .d false)))

/-- 0xF8 SED (R305). -/
def execSed (s : State) : Result := .next (charge 2 (s.setP (putFlag s.p .d true)))

/-- 0xB8 CLV (R306). -/
def execClv (s : State) : Result := .next (charge 2 (s.setP (putFlag s.p .v false)))

/-- 0xEA NOP (R307). -/
def execNop (s : State) : Result := .next (charge 2 s)

end Sys2Proof.Machine
end

