-- ==== Sys2Proof/Machine/ShiftIncDec.lean ====
section
/-! DEFINITION. Shifts, rotates, increments and decrements of memory (spec/45_shift_incdec.md): the meaning of each opcode of the family. A meaning starts in the state after
the instruction's bytes were fetched, PC past them; the number is the base cost of 30_encoding.md R114. -/

namespace Sys2Proof.Machine

/-- `RMW(mode, f)`: one read, one write of the result, the cost whatever the index crosses (R270; 41_addressing.md R186).
`f` maps the operand and P to the result and P with C written. -/
def readModifyWrite (f : Byte → Byte → Byte × Byte) (m : AddrMode) (cost : Nat) (s : State) : State :=
  let e := address m s
  let r := read e.ea e.st
  let o := f r.1 r.2.p
  let t := write e.ea o.1 (r.2.setP o.2)
  charge cost (t.setP (setNZ o.1 t.p))

/-- The accumulator form: `A <- f(A); SetNZ(A)` (R270, R271). -/
def modifyAccumulator (f : Byte → Byte → Byte × Byte) (cost : Nat) (s : State) : State :=
  let o := f s.a s.p
  charge cost (setRegNZ .a o.1 (s.setP o.2))

/-- 0x06 ASL zero page (R271). -/
def execAslZp (z : Byte) (s : State) : Result := .next (readModifyWrite aslFn (.zp z) 5 s)

/-- 0x0A ASL accumulator (R271). -/
def execAslAcc (s : State) : Result := .next (modifyAccumulator aslFn 2 s)

/-- 0x0E ASL absolute (R271). -/
def execAslAbs (w : Word) (s : State) : Result := .next (readModifyWrite aslFn (.abs w) 6 s)

/-- 0x16 ASL zero page,X (R271). -/
def execAslZpx (z : Byte) (s : State) : Result := .next (readModifyWrite aslFn (.zpx z) 6 s)

/-- 0x1E ASL absolute,X (R271). -/
def execAslAbx (w : Word) (s : State) : Result := .next (readModifyWrite aslFn (.abx w) 7 s)

/-- 0x46 LSR zero page (R272). -/
def execLsrZp (z : Byte) (s : State) : Result := .next (readModifyWrite lsrFn (.zp z) 5 s)

/-- 0x4A LSR accumulator (R272). -/
def execLsrAcc (s : State) : Result := .next (modifyAccumulator lsrFn 2 s)

/-- 0x4E LSR absolute (R272). -/
def execLsrAbs (w : Word) (s : State) : Result := .next (readModifyWrite lsrFn (.abs w) 6 s)

/-- 0x56 LSR zero page,X (R272). -/
def execLsrZpx (z : Byte) (s : State) : Result := .next (readModifyWrite lsrFn (.zpx z) 6 s)

/-- 0x5E LSR absolute,X (R272). -/
def execLsrAbx (w : Word) (s : State) : Result := .next (readModifyWrite lsrFn (.abx w) 7 s)

/-- 0x26 ROL zero page (R273). -/
def execRolZp (z : Byte) (s : State) : Result := .next (readModifyWrite rolFn (.zp z) 5 s)

/-- 0x2A ROL accumulator (R273). -/
def execRolAcc (s : State) : Result := .next (modifyAccumulator rolFn 2 s)

/-- 0x2E ROL absolute (R273). -/
def execRolAbs (w : Word) (s : State) : Result := .next (readModifyWrite rolFn (.abs w) 6 s)

/-- 0x36 ROL zero page,X (R273). -/
def execRolZpx (z : Byte) (s : State) : Result := .next (readModifyWrite rolFn (.zpx z) 6 s)

/-- 0x3E ROL absolute,X (R273). -/
def execRolAbx (w : Word) (s : State) : Result := .next (readModifyWrite rolFn (.abx w) 7 s)

/-- 0x66 ROR zero page (R274). -/
def execRorZp (z : Byte) (s : State) : Result := .next (readModifyWrite rorFn (.zp z) 5 s)

/-- 0x6A ROR accumulator (R274). -/
def execRorAcc (s : State) : Result := .next (modifyAccumulator rorFn 2 s)

/-- 0x6E ROR absolute (R274). -/
def execRorAbs (w : Word) (s : State) : Result := .next (readModifyWrite rorFn (.abs w) 6 s)

/-- 0x76 ROR zero page,X (R274). -/
def execRorZpx (z : Byte) (s : State) : Result := .next (readModifyWrite rorFn (.zpx z) 6 s)

/-- 0x7E ROR absolute,X (R274). -/
def execRorAbx (w : Word) (s : State) : Result := .next (readModifyWrite rorFn (.abx w) 7 s)

/-- 0xE6 INC zero page (R275). -/
def execIncZp (z : Byte) (s : State) : Result := .next (readModifyWrite incFn (.zp z) 5 s)

/-- 0xEE INC absolute (R275). -/
def execIncAbs (w : Word) (s : State) : Result := .next (readModifyWrite incFn (.abs w) 6 s)

/-- 0xF6 INC zero page,X (R275). -/
def execIncZpx (z : Byte) (s : State) : Result := .next (readModifyWrite incFn (.zpx z) 6 s)

/-- 0xFE INC absolute,X (R275). -/
def execIncAbx (w : Word) (s : State) : Result := .next (readModifyWrite incFn (.abx w) 7 s)

/-- 0xC6 DEC zero page (R276). -/
def execDecZp (z : Byte) (s : State) : Result := .next (readModifyWrite decFn (.zp z) 5 s)

/-- 0xCE DEC absolute (R276). -/
def execDecAbs (w : Word) (s : State) : Result := .next (readModifyWrite decFn (.abs w) 6 s)

/-- 0xD6 DEC zero page,X (R276). -/
def execDecZpx (z : Byte) (s : State) : Result := .next (readModifyWrite decFn (.zpx z) 6 s)

/-- 0xDE DEC absolute,X (R276). -/
def execDecAbx (w : Word) (s : State) : Result := .next (readModifyWrite decFn (.abx w) 7 s)

end Sys2Proof.Machine
end

