-- ==== Sys2Proof/Machine/Stack.lean ====
section
/-! DEFINITION. Stack instructions (spec/47_stack.md): the meaning of each opcode of the family. A meaning starts in the state after
the instruction's bytes were fetched, PC past them; the number is the base cost of 30_encoding.md R114. -/

namespace Sys2Proof.Machine

/-- 0x48 PHA (R322). -/
def execPha (s : State) : Result := .next (charge 3 (push s.a s))

/-- 0x08 PHP (R323). -/
def execPhp (s : State) : Result := .next (charge 3 (push (s.p ||| 0x30) s))

/-- 0x68 PLA (R324). -/
def execPla (s : State) : Result := .next (charge 4 (setRegNZ .a (pull s).1 (pull s).2))

/-- 0x28 PLP (R325). -/
def execPlp (s : State) : Result := .next (charge 4 ((pull s).2.setP (pull s).1))

end Sys2Proof.Machine
end

