-- ==== Sys2Proof/Machine/Undefined.lean ====
section
/-! DEFINITION. Undefined opcodes (spec/49_undefined.md): the meaning of each opcode of the family. A meaning starts in the state after
the instruction's bytes were fetched, PC past them; the number is the base cost of 30_encoding.md R114. -/

namespace Sys2Proof.Machine

/-- The "fixed 2-cycle no-op": the log as an output event, and the cycles (R370). -/
def undefinedOpcode (s : State) : State :=
  charge undefinedCycles (s.emit [.undefinedOpcode s.currentInstruction (s.pc - 1)])

/-- 0x02 UNDEFINED (R370). -/
def execUndef02 (s : State) : Result := .next (undefinedOpcode s)

/-- 0x03 UNDEFINED (R370). -/
def execUndef03 (s : State) : Result := .next (undefinedOpcode s)

/-- 0x04 UNDEFINED (R370). -/
def execUndef04 (s : State) : Result := .next (undefinedOpcode s)

/-- 0x07 UNDEFINED (R370). -/
def execUndef07 (s : State) : Result := .next (undefinedOpcode s)

/-- 0x0B UNDEFINED (R370). -/
def execUndef0B (s : State) : Result := .next (undefinedOpcode s)

/-- 0x0C UNDEFINED (R370). -/
def execUndef0C (s : State) : Result := .next (undefinedOpcode s)

/-- 0x0F UNDEFINED (R370). -/
def execUndef0F (s : State) : Result := .next (undefinedOpcode s)

/-- 0x12 UNDEFINED (R370). -/
def execUndef12 (s : State) : Result := .next (undefinedOpcode s)

/-- 0x13 UNDEFINED (R370). -/
def execUndef13 (s : State) : Result := .next (undefinedOpcode s)

/-- 0x14 UNDEFINED (R370). -/
def execUndef14 (s : State) : Result := .next (undefinedOpcode s)

/-- 0x17 UNDEFINED (R370). -/
def execUndef17 (s : State) : Result := .next (undefinedOpcode s)

/-- 0x1A UNDEFINED (R370). -/
def execUndef1A (s : State) : Result := .next (undefinedOpcode s)

/-- 0x1B UNDEFINED (R370). -/
def execUndef1B (s : State) : Result := .next (undefinedOpcode s)

/-- 0x1C UNDEFINED (R370). -/
def execUndef1C (s : State) : Result := .next (undefinedOpcode s)

/-- 0x1F UNDEFINED (R370). -/
def execUndef1F (s : State) : Result := .next (undefinedOpcode s)

/-- 0x22 UNDEFINED (R370). -/
def execUndef22 (s : State) : Result := .next (undefinedOpcode s)

/-- 0x23 UNDEFINED (R370). -/
def execUndef23 (s : State) : Result := .next (undefinedOpcode s)

/-- 0x27 UNDEFINED (R370). -/
def execUndef27 (s : State) : Result := .next (undefinedOpcode s)

/-- 0x2B UNDEFINED (R370). -/
def execUndef2B (s : State) : Result := .next (undefinedOpcode s)

/-- 0x2F UNDEFINED (R370). -/
def execUndef2F (s : State) : Result := .next (undefinedOpcode s)

/-- 0x32 UNDEFINED (R370). -/
def execUndef32 (s : State) : Result := .next (undefinedOpcode s)

/-- 0x33 UNDEFINED (R370). -/
def execUndef33 (s : State) : Result := .next (undefinedOpcode s)

/-- 0x34 UNDEFINED (R370). -/
def execUndef34 (s : State) : Result := .next (undefinedOpcode s)

/-- 0x37 UNDEFINED (R370). -/
def execUndef37 (s : State) : Result := .next (undefinedOpcode s)

/-- 0x3A UNDEFINED (R370). -/
def execUndef3A (s : State) : Result := .next (undefinedOpcode s)

/-- 0x3B UNDEFINED (R370). -/
def execUndef3B (s : State) : Result := .next (undefinedOpcode s)

/-- 0x3C UNDEFINED (R370). -/
def execUndef3C (s : State) : Result := .next (undefinedOpcode s)

/-- 0x3F UNDEFINED (R370). -/
def execUndef3F (s : State) : Result := .next (undefinedOpcode s)

/-- 0x42 UNDEFINED (R370). -/
def execUndef42 (s : State) : Result := .next (undefinedOpcode s)

/-- 0x43 UNDEFINED (R370). -/
def execUndef43 (s : State) : Result := .next (undefinedOpcode s)

/-- 0x44 UNDEFINED (R370). -/
def execUndef44 (s : State) : Result := .next (undefinedOpcode s)

/-- 0x47 UNDEFINED (R370). -/
def execUndef47 (s : State) : Result := .next (undefinedOpcode s)

/-- 0x4B UNDEFINED (R370). -/
def execUndef4B (s : State) : Result := .next (undefinedOpcode s)

/-- 0x4F UNDEFINED (R370). -/
def execUndef4F (s : State) : Result := .next (undefinedOpcode s)

/-- 0x52 UNDEFINED (R370). -/
def execUndef52 (s : State) : Result := .next (undefinedOpcode s)

/-- 0x53 UNDEFINED (R370). -/
def execUndef53 (s : State) : Result := .next (undefinedOpcode s)

/-- 0x54 UNDEFINED (R370). -/
def execUndef54 (s : State) : Result := .next (undefinedOpcode s)

/-- 0x57 UNDEFINED (R370). -/
def execUndef57 (s : State) : Result := .next (undefinedOpcode s)

/-- 0x5A UNDEFINED (R370). -/
def execUndef5A (s : State) : Result := .next (undefinedOpcode s)

/-- 0x5B UNDEFINED (R370). -/
def execUndef5B (s : State) : Result := .next (undefinedOpcode s)

/-- 0x5C UNDEFINED (R370). -/
def execUndef5C (s : State) : Result := .next (undefinedOpcode s)

/-- 0x5F UNDEFINED (R370). -/
def execUndef5F (s : State) : Result := .next (undefinedOpcode s)

/-- 0x62 UNDEFINED (R370). -/
def execUndef62 (s : State) : Result := .next (undefinedOpcode s)

/-- 0x63 UNDEFINED (R370). -/
def execUndef63 (s : State) : Result := .next (undefinedOpcode s)

/-- 0x64 UNDEFINED (R370). -/
def execUndef64 (s : State) : Result := .next (undefinedOpcode s)

/-- 0x67 UNDEFINED (R370). -/
def execUndef67 (s : State) : Result := .next (undefinedOpcode s)

/-- 0x6B UNDEFINED (R370). -/
def execUndef6B (s : State) : Result := .next (undefinedOpcode s)

/-- 0x6F UNDEFINED (R370). -/
def execUndef6F (s : State) : Result := .next (undefinedOpcode s)

/-- 0x72 UNDEFINED (R370). -/
def execUndef72 (s : State) : Result := .next (undefinedOpcode s)

/-- 0x73 UNDEFINED (R370). -/
def execUndef73 (s : State) : Result := .next (undefinedOpcode s)

/-- 0x74 UNDEFINED (R370). -/
def execUndef74 (s : State) : Result := .next (undefinedOpcode s)

/-- 0x77 UNDEFINED (R370). -/
def execUndef77 (s : State) : Result := .next (undefinedOpcode s)

/-- 0x7A UNDEFINED (R370). -/
def execUndef7A (s : State) : Result := .next (undefinedOpcode s)

/-- 0x7B UNDEFINED (R370). -/
def execUndef7B (s : State) : Result := .next (undefinedOpcode s)

/-- 0x7C UNDEFINED (R370). -/
def execUndef7C (s : State) : Result := .next (undefinedOpcode s)

/-- 0x7F UNDEFINED (R370). -/
def execUndef7F (s : State) : Result := .next (undefinedOpcode s)

/-- 0x80 UNDEFINED (R370). -/
def execUndef80 (s : State) : Result := .next (undefinedOpcode s)

/-- 0x82 UNDEFINED (R370). -/
def execUndef82 (s : State) : Result := .next (undefinedOpcode s)

/-- 0x83 UNDEFINED (R370). -/
def execUndef83 (s : State) : Result := .next (undefinedOpcode s)

/-- 0x87 UNDEFINED (R370). -/
def execUndef87 (s : State) : Result := .next (undefinedOpcode s)

/-- 0x89 UNDEFINED (R370). -/
def execUndef89 (s : State) : Result := .next (undefinedOpcode s)

/-- 0x8B UNDEFINED (R370). -/
def execUndef8B (s : State) : Result := .next (undefinedOpcode s)

/-- 0x8F UNDEFINED (R370). -/
def execUndef8F (s : State) : Result := .next (undefinedOpcode s)

/-- 0x92 UNDEFINED (R370). -/
def execUndef92 (s : State) : Result := .next (undefinedOpcode s)

/-- 0x93 UNDEFINED (R370). -/
def execUndef93 (s : State) : Result := .next (undefinedOpcode s)

/-- 0x97 UNDEFINED (R370). -/
def execUndef97 (s : State) : Result := .next (undefinedOpcode s)

/-- 0x9B UNDEFINED (R370). -/
def execUndef9B (s : State) : Result := .next (undefinedOpcode s)

/-- 0x9C UNDEFINED (R370). -/
def execUndef9C (s : State) : Result := .next (undefinedOpcode s)

/-- 0x9E UNDEFINED (R370). -/
def execUndef9E (s : State) : Result := .next (undefinedOpcode s)

/-- 0x9F UNDEFINED (R370). -/
def execUndef9F (s : State) : Result := .next (undefinedOpcode s)

/-- 0xA3 UNDEFINED (R370). -/
def execUndefA3 (s : State) : Result := .next (undefinedOpcode s)

/-- 0xA7 UNDEFINED (R370). -/
def execUndefA7 (s : State) : Result := .next (undefinedOpcode s)

/-- 0xAB UNDEFINED (R370). -/
def execUndefAB (s : State) : Result := .next (undefinedOpcode s)

/-- 0xAF UNDEFINED (R370). -/
def execUndefAF (s : State) : Result := .next (undefinedOpcode s)

/-- 0xB2 UNDEFINED (R370). -/
def execUndefB2 (s : State) : Result := .next (undefinedOpcode s)

/-- 0xB3 UNDEFINED (R370). -/
def execUndefB3 (s : State) : Result := .next (undefinedOpcode s)

/-- 0xB7 UNDEFINED (R370). -/
def execUndefB7 (s : State) : Result := .next (undefinedOpcode s)

/-- 0xBB UNDEFINED (R370). -/
def execUndefBB (s : State) : Result := .next (undefinedOpcode s)

/-- 0xBF UNDEFINED (R370). -/
def execUndefBF (s : State) : Result := .next (undefinedOpcode s)

/-- 0xC2 UNDEFINED (R370). -/
def execUndefC2 (s : State) : Result := .next (undefinedOpcode s)

/-- 0xC3 UNDEFINED (R370). -/
def execUndefC3 (s : State) : Result := .next (undefinedOpcode s)

/-- 0xC7 UNDEFINED (R370). -/
def execUndefC7 (s : State) : Result := .next (undefinedOpcode s)

/-- 0xCB UNDEFINED (R370). -/
def execUndefCB (s : State) : Result := .next (undefinedOpcode s)

/-- 0xCF UNDEFINED (R370). -/
def execUndefCF (s : State) : Result := .next (undefinedOpcode s)

/-- 0xD2 UNDEFINED (R370). -/
def execUndefD2 (s : State) : Result := .next (undefinedOpcode s)

/-- 0xD3 UNDEFINED (R370). -/
def execUndefD3 (s : State) : Result := .next (undefinedOpcode s)

/-- 0xD4 UNDEFINED (R370). -/
def execUndefD4 (s : State) : Result := .next (undefinedOpcode s)

/-- 0xD7 UNDEFINED (R370). -/
def execUndefD7 (s : State) : Result := .next (undefinedOpcode s)

/-- 0xDA UNDEFINED (R370). -/
def execUndefDA (s : State) : Result := .next (undefinedOpcode s)

/-- 0xDB UNDEFINED (R370). -/
def execUndefDB (s : State) : Result := .next (undefinedOpcode s)

/-- 0xDC UNDEFINED (R370). -/
def execUndefDC (s : State) : Result := .next (undefinedOpcode s)

/-- 0xDF UNDEFINED (R370). -/
def execUndefDF (s : State) : Result := .next (undefinedOpcode s)

/-- 0xE2 UNDEFINED (R370). -/
def execUndefE2 (s : State) : Result := .next (undefinedOpcode s)

/-- 0xE3 UNDEFINED (R370). -/
def execUndefE3 (s : State) : Result := .next (undefinedOpcode s)

/-- 0xE7 UNDEFINED (R370). -/
def execUndefE7 (s : State) : Result := .next (undefinedOpcode s)

/-- 0xEB UNDEFINED (R370). -/
def execUndefEB (s : State) : Result := .next (undefinedOpcode s)

/-- 0xEF UNDEFINED (R370). -/
def execUndefEF (s : State) : Result := .next (undefinedOpcode s)

/-- 0xF2 UNDEFINED (R370). -/
def execUndefF2 (s : State) : Result := .next (undefinedOpcode s)

/-- 0xF3 UNDEFINED (R370). -/
def execUndefF3 (s : State) : Result := .next (undefinedOpcode s)

/-- 0xF4 UNDEFINED (R370). -/
def execUndefF4 (s : State) : Result := .next (undefinedOpcode s)

/-- 0xF7 UNDEFINED (R370). -/
def execUndefF7 (s : State) : Result := .next (undefinedOpcode s)

/-- 0xFA UNDEFINED (R370). -/
def execUndefFA (s : State) : Result := .next (undefinedOpcode s)

/-- 0xFB UNDEFINED (R370). -/
def execUndefFB (s : State) : Result := .next (undefinedOpcode s)

/-- 0xFC UNDEFINED (R370). -/
def execUndefFC (s : State) : Result := .next (undefinedOpcode s)

/-- 0xFF UNDEFINED (R370). -/
def execUndefFF (s : State) : Result := .next (undefinedOpcode s)

end Sys2Proof.Machine
end

