-- ==== Sys2Proof/Machine/Dispatch.lean ====
section
/-! DEFINITION. exec: one arm for each constructor of Instr, each one call of its meaning (40_execution.md R144). -/

namespace Sys2Proof.Machine

/-- `Execute(op)` (R144). -/
def exec (i : Instr) (s : State) : Host.Outcome State Fault Refusal :=
  match i with
  | .brk => Sys2Proof.Machine.execBrk s
  | .oraIzx z => Sys2Proof.Machine.execOraIzx z s
  | .undef02 => Sys2Proof.Machine.execUndef02 s
  | .undef03 => Sys2Proof.Machine.execUndef03 s
  | .undef04 => Sys2Proof.Machine.execUndef04 s
  | .oraZp z => Sys2Proof.Machine.execOraZp z s
  | .aslZp z => Sys2Proof.Machine.execAslZp z s
  | .undef07 => Sys2Proof.Machine.execUndef07 s
  | .php => Sys2Proof.Machine.execPhp s
  | .oraImm v => Sys2Proof.Machine.execOraImm v s
  | .aslAcc => Sys2Proof.Machine.execAslAcc s
  | .undef0B => Sys2Proof.Machine.execUndef0B s
  | .undef0C => Sys2Proof.Machine.execUndef0C s
  | .oraAbs w => Sys2Proof.Machine.execOraAbs w s
  | .aslAbs w => Sys2Proof.Machine.execAslAbs w s
  | .undef0F => Sys2Proof.Machine.execUndef0F s
  | .bpl d => Sys2Proof.Machine.execBpl d s
  | .oraIzy z => Sys2Proof.Machine.execOraIzy z s
  | .undef12 => Sys2Proof.Machine.execUndef12 s
  | .undef13 => Sys2Proof.Machine.execUndef13 s
  | .undef14 => Sys2Proof.Machine.execUndef14 s
  | .oraZpx z => Sys2Proof.Machine.execOraZpx z s
  | .aslZpx z => Sys2Proof.Machine.execAslZpx z s
  | .undef17 => Sys2Proof.Machine.execUndef17 s
  | .clc => Sys2Proof.Machine.execClc s
  | .oraAby w => Sys2Proof.Machine.execOraAby w s
  | .undef1A => Sys2Proof.Machine.execUndef1A s
  | .undef1B => Sys2Proof.Machine.execUndef1B s
  | .undef1C => Sys2Proof.Machine.execUndef1C s
  | .oraAbx w => Sys2Proof.Machine.execOraAbx w s
  | .aslAbx w => Sys2Proof.Machine.execAslAbx w s
  | .undef1F => Sys2Proof.Machine.execUndef1F s
  | .jsr w => Sys2Proof.Machine.execJsr w s
  | .andIzx z => Sys2Proof.Machine.execAndIzx z s
  | .undef22 => Sys2Proof.Machine.execUndef22 s
  | .undef23 => Sys2Proof.Machine.execUndef23 s
  | .bitZp z => Sys2Proof.Machine.execBitZp z s
  | .andZp z => Sys2Proof.Machine.execAndZp z s
  | .rolZp z => Sys2Proof.Machine.execRolZp z s
  | .undef27 => Sys2Proof.Machine.execUndef27 s
  | .plp => Sys2Proof.Machine.execPlp s
  | .andImm v => Sys2Proof.Machine.execAndImm v s
  | .rolAcc => Sys2Proof.Machine.execRolAcc s
  | .undef2B => Sys2Proof.Machine.execUndef2B s
  | .bitAbs w => Sys2Proof.Machine.execBitAbs w s
  | .andAbs w => Sys2Proof.Machine.execAndAbs w s
  | .rolAbs w => Sys2Proof.Machine.execRolAbs w s
  | .undef2F => Sys2Proof.Machine.execUndef2F s
  | .bmi d => Sys2Proof.Machine.execBmi d s
  | .andIzy z => Sys2Proof.Machine.execAndIzy z s
  | .undef32 => Sys2Proof.Machine.execUndef32 s
  | .undef33 => Sys2Proof.Machine.execUndef33 s
  | .undef34 => Sys2Proof.Machine.execUndef34 s
  | .andZpx z => Sys2Proof.Machine.execAndZpx z s
  | .rolZpx z => Sys2Proof.Machine.execRolZpx z s
  | .undef37 => Sys2Proof.Machine.execUndef37 s
  | .sec => Sys2Proof.Machine.execSec s
  | .andAby w => Sys2Proof.Machine.execAndAby w s
  | .undef3A => Sys2Proof.Machine.execUndef3A s
  | .undef3B => Sys2Proof.Machine.execUndef3B s
  | .undef3C => Sys2Proof.Machine.execUndef3C s
  | .andAbx w => Sys2Proof.Machine.execAndAbx w s
  | .rolAbx w => Sys2Proof.Machine.execRolAbx w s
  | .undef3F => Sys2Proof.Machine.execUndef3F s
  | .rti => Sys2Proof.Machine.execRti s
  | .eorIzx z => Sys2Proof.Machine.execEorIzx z s
  | .undef42 => Sys2Proof.Machine.execUndef42 s
  | .undef43 => Sys2Proof.Machine.execUndef43 s
  | .undef44 => Sys2Proof.Machine.execUndef44 s
  | .eorZp z => Sys2Proof.Machine.execEorZp z s
  | .lsrZp z => Sys2Proof.Machine.execLsrZp z s
  | .undef47 => Sys2Proof.Machine.execUndef47 s
  | .pha => Sys2Proof.Machine.execPha s
  | .eorImm v => Sys2Proof.Machine.execEorImm v s
  | .lsrAcc => Sys2Proof.Machine.execLsrAcc s
  | .undef4B => Sys2Proof.Machine.execUndef4B s
  | .jmpAbs w => Sys2Proof.Machine.execJmpAbs w s
  | .eorAbs w => Sys2Proof.Machine.execEorAbs w s
  | .lsrAbs w => Sys2Proof.Machine.execLsrAbs w s
  | .undef4F => Sys2Proof.Machine.execUndef4F s
  | .bvc d => Sys2Proof.Machine.execBvc d s
  | .eorIzy z => Sys2Proof.Machine.execEorIzy z s
  | .undef52 => Sys2Proof.Machine.execUndef52 s
  | .undef53 => Sys2Proof.Machine.execUndef53 s
  | .undef54 => Sys2Proof.Machine.execUndef54 s
  | .eorZpx z => Sys2Proof.Machine.execEorZpx z s
  | .lsrZpx z => Sys2Proof.Machine.execLsrZpx z s
  | .undef57 => Sys2Proof.Machine.execUndef57 s
  | .cli => Sys2Proof.Machine.execCli s
  | .eorAby w => Sys2Proof.Machine.execEorAby w s
  | .undef5A => Sys2Proof.Machine.execUndef5A s
  | .undef5B => Sys2Proof.Machine.execUndef5B s
  | .undef5C => Sys2Proof.Machine.execUndef5C s
  | .eorAbx w => Sys2Proof.Machine.execEorAbx w s
  | .lsrAbx w => Sys2Proof.Machine.execLsrAbx w s
  | .undef5F => Sys2Proof.Machine.execUndef5F s
  | .rts => Sys2Proof.Machine.execRts s
  | .adcIzx z => Sys2Proof.Machine.execAdcIzx z s
  | .undef62 => Sys2Proof.Machine.execUndef62 s
  | .undef63 => Sys2Proof.Machine.execUndef63 s
  | .undef64 => Sys2Proof.Machine.execUndef64 s
  | .adcZp z => Sys2Proof.Machine.execAdcZp z s
  | .rorZp z => Sys2Proof.Machine.execRorZp z s
  | .undef67 => Sys2Proof.Machine.execUndef67 s
  | .pla => Sys2Proof.Machine.execPla s
  | .adcImm v => Sys2Proof.Machine.execAdcImm v s
  | .rorAcc => Sys2Proof.Machine.execRorAcc s
  | .undef6B => Sys2Proof.Machine.execUndef6B s
  | .jmpInd w => Sys2Proof.Machine.execJmpInd w s
  | .adcAbs w => Sys2Proof.Machine.execAdcAbs w s
  | .rorAbs w => Sys2Proof.Machine.execRorAbs w s
  | .undef6F => Sys2Proof.Machine.execUndef6F s
  | .bvs d => Sys2Proof.Machine.execBvs d s
  | .adcIzy z => Sys2Proof.Machine.execAdcIzy z s
  | .undef72 => Sys2Proof.Machine.execUndef72 s
  | .undef73 => Sys2Proof.Machine.execUndef73 s
  | .undef74 => Sys2Proof.Machine.execUndef74 s
  | .adcZpx z => Sys2Proof.Machine.execAdcZpx z s
  | .rorZpx z => Sys2Proof.Machine.execRorZpx z s
  | .undef77 => Sys2Proof.Machine.execUndef77 s
  | .sei => Sys2Proof.Machine.execSei s
  | .adcAby w => Sys2Proof.Machine.execAdcAby w s
  | .undef7A => Sys2Proof.Machine.execUndef7A s
  | .undef7B => Sys2Proof.Machine.execUndef7B s
  | .undef7C => Sys2Proof.Machine.execUndef7C s
  | .adcAbx w => Sys2Proof.Machine.execAdcAbx w s
  | .rorAbx w => Sys2Proof.Machine.execRorAbx w s
  | .undef7F => Sys2Proof.Machine.execUndef7F s
  | .undef80 => Sys2Proof.Machine.execUndef80 s
  | .staIzx z => Sys2Proof.Machine.execStaIzx z s
  | .undef82 => Sys2Proof.Machine.execUndef82 s
  | .undef83 => Sys2Proof.Machine.execUndef83 s
  | .styZp z => Sys2Proof.Machine.execStyZp z s
  | .staZp z => Sys2Proof.Machine.execStaZp z s
  | .stxZp z => Sys2Proof.Machine.execStxZp z s
  | .undef87 => Sys2Proof.Machine.execUndef87 s
  | .dey => Sys2Proof.Machine.execDey s
  | .undef89 => Sys2Proof.Machine.execUndef89 s
  | .txa => Sys2Proof.Machine.execTxa s
  | .undef8B => Sys2Proof.Machine.execUndef8B s
  | .styAbs w => Sys2Proof.Machine.execStyAbs w s
  | .staAbs w => Sys2Proof.Machine.execStaAbs w s
  | .stxAbs w => Sys2Proof.Machine.execStxAbs w s
  | .undef8F => Sys2Proof.Machine.execUndef8F s
  | .bcc d => Sys2Proof.Machine.execBcc d s
  | .staIzy z => Sys2Proof.Machine.execStaIzy z s
  | .undef92 => Sys2Proof.Machine.execUndef92 s
  | .undef93 => Sys2Proof.Machine.execUndef93 s
  | .styZpx z => Sys2Proof.Machine.execStyZpx z s
  | .staZpx z => Sys2Proof.Machine.execStaZpx z s
  | .stxZpy z => Sys2Proof.Machine.execStxZpy z s
  | .undef97 => Sys2Proof.Machine.execUndef97 s
  | .tya => Sys2Proof.Machine.execTya s
  | .staAby w => Sys2Proof.Machine.execStaAby w s
  | .txs => Sys2Proof.Machine.execTxs s
  | .undef9B => Sys2Proof.Machine.execUndef9B s
  | .undef9C => Sys2Proof.Machine.execUndef9C s
  | .staAbx w => Sys2Proof.Machine.execStaAbx w s
  | .undef9E => Sys2Proof.Machine.execUndef9E s
  | .undef9F => Sys2Proof.Machine.execUndef9F s
  | .ldyImm v => Sys2Proof.Machine.execLdyImm v s
  | .ldaIzx z => Sys2Proof.Machine.execLdaIzx z s
  | .ldxImm v => Sys2Proof.Machine.execLdxImm v s
  | .undefA3 => Sys2Proof.Machine.execUndefA3 s
  | .ldyZp z => Sys2Proof.Machine.execLdyZp z s
  | .ldaZp z => Sys2Proof.Machine.execLdaZp z s
  | .ldxZp z => Sys2Proof.Machine.execLdxZp z s
  | .undefA7 => Sys2Proof.Machine.execUndefA7 s
  | .tay => Sys2Proof.Machine.execTay s
  | .ldaImm v => Sys2Proof.Machine.execLdaImm v s
  | .tax => Sys2Proof.Machine.execTax s
  | .undefAB => Sys2Proof.Machine.execUndefAB s
  | .ldyAbs w => Sys2Proof.Machine.execLdyAbs w s
  | .ldaAbs w => Sys2Proof.Machine.execLdaAbs w s
  | .ldxAbs w => Sys2Proof.Machine.execLdxAbs w s
  | .undefAF => Sys2Proof.Machine.execUndefAF s
  | .bcs d => Sys2Proof.Machine.execBcs d s
  | .ldaIzy z => Sys2Proof.Machine.execLdaIzy z s
  | .undefB2 => Sys2Proof.Machine.execUndefB2 s
  | .undefB3 => Sys2Proof.Machine.execUndefB3 s
  | .ldyZpx z => Sys2Proof.Machine.execLdyZpx z s
  | .ldaZpx z => Sys2Proof.Machine.execLdaZpx z s
  | .ldxZpy z => Sys2Proof.Machine.execLdxZpy z s
  | .undefB7 => Sys2Proof.Machine.execUndefB7 s
  | .clv => Sys2Proof.Machine.execClv s
  | .ldaAby w => Sys2Proof.Machine.execLdaAby w s
  | .tsx => Sys2Proof.Machine.execTsx s
  | .undefBB => Sys2Proof.Machine.execUndefBB s
  | .ldyAbx w => Sys2Proof.Machine.execLdyAbx w s
  | .ldaAbx w => Sys2Proof.Machine.execLdaAbx w s
  | .ldxAby w => Sys2Proof.Machine.execLdxAby w s
  | .undefBF => Sys2Proof.Machine.execUndefBF s
  | .cpyImm v => Sys2Proof.Machine.execCpyImm v s
  | .cmpIzx z => Sys2Proof.Machine.execCmpIzx z s
  | .undefC2 => Sys2Proof.Machine.execUndefC2 s
  | .undefC3 => Sys2Proof.Machine.execUndefC3 s
  | .cpyZp z => Sys2Proof.Machine.execCpyZp z s
  | .cmpZp z => Sys2Proof.Machine.execCmpZp z s
  | .decZp z => Sys2Proof.Machine.execDecZp z s
  | .undefC7 => Sys2Proof.Machine.execUndefC7 s
  | .iny => Sys2Proof.Machine.execIny s
  | .cmpImm v => Sys2Proof.Machine.execCmpImm v s
  | .dex => Sys2Proof.Machine.execDex s
  | .undefCB => Sys2Proof.Machine.execUndefCB s
  | .cpyAbs w => Sys2Proof.Machine.execCpyAbs w s
  | .cmpAbs w => Sys2Proof.Machine.execCmpAbs w s
  | .decAbs w => Sys2Proof.Machine.execDecAbs w s
  | .undefCF => Sys2Proof.Machine.execUndefCF s
  | .bne d => Sys2Proof.Machine.execBne d s
  | .cmpIzy z => Sys2Proof.Machine.execCmpIzy z s
  | .undefD2 => Sys2Proof.Machine.execUndefD2 s
  | .undefD3 => Sys2Proof.Machine.execUndefD3 s
  | .undefD4 => Sys2Proof.Machine.execUndefD4 s
  | .cmpZpx z => Sys2Proof.Machine.execCmpZpx z s
  | .decZpx z => Sys2Proof.Machine.execDecZpx z s
  | .undefD7 => Sys2Proof.Machine.execUndefD7 s
  | .cld => Sys2Proof.Machine.execCld s
  | .cmpAby w => Sys2Proof.Machine.execCmpAby w s
  | .undefDA => Sys2Proof.Machine.execUndefDA s
  | .undefDB => Sys2Proof.Machine.execUndefDB s
  | .undefDC => Sys2Proof.Machine.execUndefDC s
  | .cmpAbx w => Sys2Proof.Machine.execCmpAbx w s
  | .decAbx w => Sys2Proof.Machine.execDecAbx w s
  | .undefDF => Sys2Proof.Machine.execUndefDF s
  | .cpxImm v => Sys2Proof.Machine.execCpxImm v s
  | .sbcIzx z => Sys2Proof.Machine.execSbcIzx z s
  | .undefE2 => Sys2Proof.Machine.execUndefE2 s
  | .undefE3 => Sys2Proof.Machine.execUndefE3 s
  | .cpxZp z => Sys2Proof.Machine.execCpxZp z s
  | .sbcZp z => Sys2Proof.Machine.execSbcZp z s
  | .incZp z => Sys2Proof.Machine.execIncZp z s
  | .undefE7 => Sys2Proof.Machine.execUndefE7 s
  | .inx => Sys2Proof.Machine.execInx s
  | .sbcImm v => Sys2Proof.Machine.execSbcImm v s
  | .nop => Sys2Proof.Machine.execNop s
  | .undefEB => Sys2Proof.Machine.execUndefEB s
  | .cpxAbs w => Sys2Proof.Machine.execCpxAbs w s
  | .sbcAbs w => Sys2Proof.Machine.execSbcAbs w s
  | .incAbs w => Sys2Proof.Machine.execIncAbs w s
  | .undefEF => Sys2Proof.Machine.execUndefEF s
  | .beq d => Sys2Proof.Machine.execBeq d s
  | .sbcIzy z => Sys2Proof.Machine.execSbcIzy z s
  | .undefF2 => Sys2Proof.Machine.execUndefF2 s
  | .undefF3 => Sys2Proof.Machine.execUndefF3 s
  | .undefF4 => Sys2Proof.Machine.execUndefF4 s
  | .sbcZpx z => Sys2Proof.Machine.execSbcZpx z s
  | .incZpx z => Sys2Proof.Machine.execIncZpx z s
  | .undefF7 => Sys2Proof.Machine.execUndefF7 s
  | .sed => Sys2Proof.Machine.execSed s
  | .sbcAby w => Sys2Proof.Machine.execSbcAby w s
  | .undefFA => Sys2Proof.Machine.execUndefFA s
  | .undefFB => Sys2Proof.Machine.execUndefFB s
  | .undefFC => Sys2Proof.Machine.execUndefFC s
  | .sbcAbx w => Sys2Proof.Machine.execSbcAbx w s
  | .incAbx w => Sys2Proof.Machine.execIncAbx w s
  | .undefFF => Sys2Proof.Machine.execUndefFF s

end Sys2Proof.Machine
end

