-- ==== Sys2Proof/Machine/Iteration.lean ====
section
/-! DEFINITION. One iteration of the fetch-execute loop and the burst (spec/40_execution.md). -/

namespace Sys2Proof.Machine

/-- `Iteration()`: NMI, else IRQ, else the address breakpoint, else one instruction (R141, R149). -/
def iteration (s : State) : Result :=
  if s.nmiPending then .next ((enterInterrupt vectorNmi s).setNmi false)
  else if s.irqPending && !getFlag s.p .i then .next (enterInterrupt vectorIrq s)
  else if s.bpKind = .atAddress ∧ s.bpAddr = s.pc then .next (s.setBpHit true)
  else
    let f := fetchInstr s
    exec f.1 f.2

/-- Go on from a next state; a stop stays a stop. -/
def andThen {α β : Type} (o : Host.Outcome α Fault Refusal) (f : α → Host.Outcome β Fault Refusal) :
    Host.Outcome β Fault Refusal :=
  match o with
  | .next s => f s
  | .fault r => .fault r
  | .refused r => .refused r

/-- At most `fuel` passes of the loop of `FetchExecute(target)` (R140). -/
def burst : Nat → Nat → State → Result
  | 0, _, s => .next s
  | fuel + 1, target, s =>
    if s.cycleTime < target ∧ s.bpHit = false then andThen (iteration s) (burst fuel target) else .next s

/-- `FetchExecute(target_time)`: the state it ends in, whose `bp_hit` is what it returns (R140, R142). Each pass but a stop adds
at least 2 cycles (R148), so the fuel never runs out (log 19). -/
def fetchExecute (target : Nat) (s : State) : Result := burst (target - s.cycleTime + 1) target s

end Sys2Proof.Machine
end

