-- ==== Sys2Proof/Machine/Timer.lean ====
section
/-! DEFINITION. The scanline timer and the cassette (60_exceptions.md sections 5 and 6). -/

namespace Sys2Proof.Machine

/-- `StartAddress()` (R431). -/
def startAddress (s : State) : Word :=
  (((s.sheila[3] &&& 0x3F).setWidth 16) <<< 9) ||| (((s.sheila[2] &&& 0xE0).setWidth 16) <<< 1)

/-- `tape.is_at_end()` answered yes, `rest` being the answers still to come (R472). -/
def tapeEnded (rest : List TapeAnswer) (s : State) : State := (s.setTape rest).emit [.tapeIsAtEnd]

/-- `tape.is_at_end()` answered no and `tape.next_symbol()` answered, `rest` being the answers still to come (R472). -/
def tapeAnswered (rest : List TapeAnswer) (s : State) : State := (s.setTape rest).emit [.tapeIsAtEnd, .tapeNextSymbol]

/-- CassetteRead (R461). The oracle's answers are an input; past the last one the tape is at its end (log 9). -/
def cassetteRead (s : State) : State :=
  match s.tape with
  | [] => tapeEnded [] s
  | .atEnd :: rest => tapeEnded rest s
  | .byte b :: rest => raiseCondition 4 ((tapeAnswered rest s).setSheila 4 b)
  | .highTone :: rest => raiseCondition 6 (tapeAnswered rest s)
  | .silence :: rest => tapeAnswered rest s

/-- CassetteWrite (R462). -/
def cassetteWrite (s : State) : State :=
  if s.dataShiftHasData then raiseCondition 5 ((s.emit [.tapeStoreByte s.sheila[4]]).setHasData false)
  else s.emit [.tapeStoreHighTone]

/-- CassetteTick (R460). -/
def cassetteTick (s : State) : State :=
  let n := s.cassetteCounter + 1
  if n < cassetteByteScanlines then s.setCassetteCounter n
  else
    let s := s.setCassetteCounter 0
    if s.sheila[7].getLsbD 6 = false then s
    else if commsMode s.sheila[7] = 0 then cassetteRead s
    else if commsMode s.sheila[7] = 2 then cassetteWrite s
    else s

/-- The scanline's cycles taken off `cycle_time`, and the counter moved on, 311 to 0 (R451). -/
def nextScanline (s : State) : State :=
  (s.setCycleTime (s.cycleTime - scanlineCycles)).setScanline ((s.scanline + 1) % frameLines)

/-- At scanline 0 the start address is applied to the Video (R431, R451). -/
def latchStart (s : State) : State := if s.scanline = 0 then s.emit [.videoSetStartAddress (startAddress s)] else s

/-- A visible scanline is drawn (R451). -/
def drawLine (s : State) : State := if s.scanline < visibleLines then s.emit [.videoDrawScanline s.scanline] else s

/-- The condition that a fixed scanline raises (R454, R455). -/
def raiseAt (line bit : Nat) (s : State) : State := if s.scanline = line then raiseCondition bit s else s

/-- EndOfScanline (R451): the RTC raises bit 3 (R454), the display end bit 2 (R455). -/
def endOfScanline (s : State) : State :=
  cassetteTick (raiseAt displayEndScanline 2 (raiseAt rtcScanline 3 (drawLine (latchStart (nextScanline s)))))

end Sys2Proof.Machine
end

