-- ==== Sys2Proof/Machine/Driver.lean ====
section
/-! DEFINITION. Restart (70_reset_and_hazards.md), the host surface and the frame driver (60_exceptions.md sections 5, 7, 8). -/

namespace Sys2Proof.Machine

/-- CpuRestart (70_reset_and_hazards.md R501). -/
def cpuRestart (s : State) : State :=
  let s := ((((s.setA 0).setX 0).setY 0).setP 0x24).setSp 0xFF
  let s := s.setCycleTime 0
  let v := read16 vectorReset s
  (((v.2.setPc v.1).setBpHit false).setIrq false).setNmi false

/-- MachineRestart, the host's `restart()` (R502). -/
def machineRestart (s : State) : State := updateIrq (cpuRestart s)

/-- End-of-scanline bookkeeping `n` times. -/
def endScanlines : Nat → State → State
  | 0, s => s
  | n + 1, s => endScanlines n (endOfScanline s)

/-- The host's `step()`: one iteration with the breakpoint disabled, then the bookkeeping "while cycle_time >= SCANLINE_CYCLES",
which is once for each whole scanline in `cycle_time` (60_exceptions.md R481). -/
def hostStep (s : State) : Result :=
  andThen (iteration (s.setBreakpoint .none s.bpAddr)) fun t =>
    .next (endScanlines (t.cycleTime / scanlineCycles) (t.setBreakpoint s.bpKind t.bpAddr))

/-- The ROM that a load of `source` leaves: present with exactly 16384 bytes, else absent (R474). -/
def loadedRom (source : List Byte) : Option RomImage :=
  if source.length = romSize then some (Rom.ofBytes source) else none

/-- What a ROM load reports (R474). -/
def loadResult (source : List Byte) : OutputEvent := .romLoadReturned (decide (source.length = romSize))

/-- `keyboard[row][col] <- b` (R483). -/
def putKey (row : Fin 14) (col : Fin 4) (b : Bool) (s : State) : State :=
  s.setKeyboard (s.keyboard.set row (putBit s.keyboard[row] col.val b))

/-- The debug snapshot: "registers/flags/PC/cycle time/scanline" (10_state.md R61), and `current_instruction`, which "is visible
in the debug snapshot" (R46). -/
structure Snapshot where
  a : Byte
  x : Byte
  y : Byte
  p : Byte
  sp : Byte
  pc : Word
  cycleTime : Nat
  scanline : Nat
  currentInstruction : Byte
deriving DecidableEq, Repr

/-- The snapshot of a state, "each as stored"; reading it has no side effect (R46, R61). -/
def snapshot (s : State) : Snapshot :=
  ⟨s.a, s.x, s.y, s.p, s.sp, s.pc, s.cycleTime, s.scanline, s.currentInstruction⟩

/-- One host call, made between calls into the core. `run_frame` only starts here; its steps follow. DEDUCED: a ROM clear,
which takes no byte source, reports success (R474 "load/clear operations ... report success/failure", log 20). -/
def hostCall (c : HostCall) (s : State) : Result :=
  match c with
  | .runFrame => .next (s.setDriver .runningFrame)
  | .step => hostStep s
  | .restart => .next (machineRestart s)
  | .setBreakpoint kind addr => .next ((s.setBreakpoint kind addr).setBpHit false)
  | .press row col => .next (putKey row col true s)
  | .release row col => .next (putKey row col false s)
  | .loadOsRom source => .next ((s.setOsRom (loadedRom source)).emit [loadResult source])
  | .clearOsRom => .next ((s.setOsRom none).emit [.romClearReturned true])
  | .loadBank bank source =>
    .next ((s.setPagedRoms (s.pagedRoms.set (physicalBank bank) (loadedRom source))).emit [loadResult source])
  | .clearBank bank =>
    .next ((s.setPagedRoms (s.pagedRoms.set (physicalBank bank) none)).emit [.romClearReturned true])
  | .triggerNmi => .next (s.setNmi true)
  | .debugRead addr =>
    let r := machineRead addr s
    .next (r.2.emit [.debugReadReturned addr r.1])

/-- `run_frame` returns `r` to its caller: the driver goes to Idle (60_exceptions.md R453). -/
def frameReturn (r : FrameResult) (s : State) : State := (s.setDriver .idle).emit [.frameReturned r]

/-- One transition of `run_frame` in progress (R450): a breakpoint return, which clears the hit (R452), or one iteration of the
burst, or the end of a scanline, which ends the frame when the scanline wraps to 0. -/
def frameStep (s : State) : Result :=
  if s.bpHit then .next (frameReturn .breakpoint (s.setBpHit false))
  else if s.cycleTime < scanlineCycles then iteration s
  else
    let t := endOfScanline s
    .next (if t.scanline = 0 then frameReturn .frameComplete t else t)

/-- One transition in Idle: the next host call, or, when none waits, the driver's next `run_frame` ("the driver (excluded)
repeatedly asks the Machine to run one frame", 60_exceptions.md R491; log 7). -/
def idleStep (s : State) : Result :=
  match s.calls with
  | [] => .next (s.setDriver .runningFrame)
  | c :: rest => hostCall c (s.setCalls rest)

/-- One transition of the machine under its driver (60_exceptions.md R453). -/
def driverStep (s : State) : Result :=
  match s.driver with
  | .idle => idleStep s
  | .runningFrame => frameStep s

/-- Where an instruction placed from outside stands: in RAM, the place of the programs of 95_test_vectors.md (log 11). -/
def programStart : Word := 0x0200

/-- RAM with `bytes` stored from address `a` on. -/
def storeBytes : Nat → List Byte → List Host.Cell → List Host.Cell
  | _, [], m => m
  | a, b :: bs, m => storeBytes (a + 1) bs (Memory.set m a b)

/-- `bytes` placed at `programStart`, and nothing in the way of fetching them in the very next step (log 11): PC there, a frame
running, no NMI latched, no IRQ about to enter, no breakpoint hit or at-address breakpoint, and cycles left in the scanline. -/
def placeInstruction (s : State) (bytes : List Byte) : State :=
  let s := (s.setRam (storeBytes programStart.toNat bytes s.ram)).setPc programStart
  let s := ((s.setDriver .runningFrame).setNmi false).setIrq (s.irqPending && getFlag s.p .i)
  let s := (s.setBpHit false).setBreakpoint (if s.bpKind = .atAddress then .none else s.bpKind) s.bpAddr
  s.setCycleTime (s.cycleTime % scanlineCycles)

/-- At most `fuel` scanlines of `RunFrame` (R450), as one function. -/
def runScanlines : Nat → State → Host.Outcome (FrameResult × State) Fault Refusal
  | 0, s => .next (.frameComplete, s)
  | fuel + 1, s =>
    andThen (fetchExecute scanlineCycles s) fun t =>
      if t.bpHit then .next (.breakpoint, t.setBpHit false)
      else
        let u := endOfScanline t
        if u.scanline = 0 then .next (.frameComplete, u) else runScanlines fuel u

/-- `RunFrame()` (R450): a frame ends within 312 scanlines, so the fuel never runs out (log 19). -/
def runFrame (s : State) : Host.Outcome (FrameResult × State) Fault Refusal := runScanlines frameLines s

end Sys2Proof.Machine
end

