-- ==== Sys2Proof/Machine/Step.lean ====
section
/-! DEFINITION. The step of the machine, and the placing of an instruction where the step fetches it. -/

namespace Sys2Proof.Machine

/-- One step: one transition of the core under its driver (40_execution.md R141; 60_exceptions.md R450, R453). -/
def step (s : State) : Host.Outcome State Fault Refusal := driverStep s

/-- The instruction whose bits are `w` placed at 0x0200 in RAM, with a `run_frame` in progress that fetches it in the very next
step: PC there, no interrupt about to enter, no breakpoint stop, the scanline's budget not used up (log 11). -/
def State.withFetchWord (s : State) (nbits w : Nat) : State := placeInstruction s (tableBytes nbits w)

end Sys2Proof.Machine
end

