-- ==== Sys2Proof/Safety.lean ====
section
/-! DEFINITION. What claims are stated in: the invariant of the machine, the parts of a state that an action leaves alone, and
what each instruction may write, as the spec lists it. -/

namespace Sys2Proof.Machine

/-- What the spec says of every state between iterations: memory in its canonical form (the model's), `int_status` bits 0 and 7
"never stored as 1" (10_state.md R52), `irq_pending` the ULA's level (60_exceptions.md R422), the mask the byte last written
to offset 0 (R421), the counters in their ranges (10_state.md R54, R55), the overrun bound (70_reset_and_hazards.md R522),
bank 11 never loaded (20_memory.md R78), and keys in bits 0..3 (60_exceptions.md R483). -/
structure State.Inv (s : State) : Prop where
  memory : s.memoryWf = true
  status : s.intStatus &&& 0x81 = 0
  irqLevel : s.irqPending = (s.intStatus &&& s.enableMask &&& 0x7C != 0)
  mask : s.enableMask = s.sheila[0]
  scanline : s.scanline < 312
  cassette : s.cassetteCounter < 130
  time : s.cycleTime ≤ 134
  bank : s.pagedRoms[11] = none
  keys : ∀ r : Fin 14, s.keyboard[r] &&& 0xF0 = 0

/-- The fields of State. -/
inductive Field where
  | a | x | y | sp | p | pc | cycleTime | irqPending | nmiPending | bpKind | bpAddr | bpHit | currentInstruction
  | ram | osRom | pagedRoms | page | sheila | intStatus | enableMask | scanline | cassetteCounter | dataShiftHasData
  | keyboard | driver | output | tape | calls
deriving DecidableEq, Repr

/-- A field has the same value in two states. -/
def Same (s t : State) : Field → Prop
  | .a => t.a = s.a
  | .x => t.x = s.x
  | .y => t.y = s.y
  | .sp => t.sp = s.sp
  | .p => t.p = s.p
  | .pc => t.pc = s.pc
  | .cycleTime => t.cycleTime = s.cycleTime
  | .irqPending => t.irqPending = s.irqPending
  | .nmiPending => t.nmiPending = s.nmiPending
  | .bpKind => t.bpKind = s.bpKind
  | .bpAddr => t.bpAddr = s.bpAddr
  | .bpHit => t.bpHit = s.bpHit
  | .currentInstruction => t.currentInstruction = s.currentInstruction
  | .ram => t.ram = s.ram
  | .osRom => t.osRom = s.osRom
  | .pagedRoms => t.pagedRoms = s.pagedRoms
  | .page => t.page = s.page
  | .sheila => t.sheila = s.sheila
  | .intStatus => t.intStatus = s.intStatus
  | .enableMask => t.enableMask = s.enableMask
  | .scanline => t.scanline = s.scanline
  | .cassetteCounter => t.cassetteCounter = s.cassetteCounter
  | .dataShiftHasData => t.dataShiftHasData = s.dataShiftHasData
  | .keyboard => t.keyboard = s.keyboard
  | .driver => t.driver = s.driver
  | .output => t.output = s.output
  | .tape => t.tape = s.tape
  | .calls => t.calls = s.calls

/-- No field outside the list changes from `s` to `t`. -/
def UnchangedBut (fs : List Field) (s t : State) : Prop := ∀ f, f ∉ fs → Same s t f

/-- No flag outside the list changes from `p` to `q`. -/
def FlagsUnchangedBut (fs : List Flag) (p q : Byte) : Prop := ∀ f, f ∉ fs → getFlag q f = getFlag p f

/-- The addresses a source is read from but for its pointers: EA of a memory operand. -/
def sourceAddresses (x : Source) (s : State) : List Word :=
  match x with
  | .mem m => [(address m s).ea]
  | .imm _ => []

end Sys2Proof.Machine

namespace Sys2Proof

open Machine

/-- The "flags written" column of 30_encoding.md R114. -/
def Mnemonic.flagsWritten : Mnemonic → List Flag
  | .lda | .ldx | .ldy | .and | .ora | .eor | .inc | .dec | .inx | .iny | .dex | .dey
  | .tax | .tay | .txa | .tya | .tsx | .pla => [.n, .z]
  | .adc | .sbc | .cmp | .cpx | .cpy => [.n, .v, .z, .c]
  | .asl | .lsr | .rol | .ror => [.n, .z, .c]
  | .bit => [.n, .v, .z]
  | .clc | .sec => [.c]
  | .cli | .sei => [.i]
  | .cld | .sed => [.d]
  | .clv => [.v]
  | .brk => [.b, .i]
  | .plp | .rti => [.n, .v, .u, .b, .d, .i, .z, .c]
  | .sta | .stx | .sty | .txs | .nop | .pha | .php | .bpl | .bmi | .bvc | .bvs | .bcc | .bcs | .bne | .beq
  | .jmp | .jsr | .rts | .undefined => []

/-- The general registers and S that an instruction writes (10_state.md R30, R31, and each instruction's rule). -/
def Instr.registersWritten (i : Instr) : List Field :=
  match i.mnemonic, i.operand with
  | .asl, .accumulator | .lsr, .accumulator | .rol, .accumulator | .ror, .accumulator => [.a]
  | .lda, _ | .adc, _ | .sbc, _ | .and, _ | .ora, _ | .eor, _ | .txa, _ | .tya, _ => [.a]
  | .ldx, _ | .tax, _ | .tsx, _ | .inx, _ | .dex, _ => [.x]
  | .ldy, _ | .tay, _ | .iny, _ | .dey, _ => [.y]
  | .txs, _ | .pha, _ | .php, _ | .plp, _ | .jsr, _ | .rts, _ | .brk, _ | .rti, _ => [.sp]
  | .pla, _ => [.a, .sp]
  | _, _ => []

/-- The addresses an instruction stores to, in the state in which its bytes have been fetched: EA of a store or a
read-modify-write, the stack bytes of a push. -/
def Instr.storedAddresses (i : Instr) (s : State) : List Word :=
  match i.mnemonic, i.operand with
  | .sta, .source (.mem m) | .stx, .source (.mem m) | .sty, .source (.mem m)
  | .asl, .source (.mem m) | .lsr, .source (.mem m) | .rol, .source (.mem m) | .ror, .source (.mem m)
  | .inc, .source (.mem m) | .dec, .source (.mem m) => [(address m s).ea]
  | .pha, _ | .php, _ => [stackAddr s.sp]
  | .jsr, _ => [stackAddr s.sp, stackAddr (s.sp - 1)]
  | .brk, _ => [stackAddr s.sp, stackAddr (s.sp - 1), stackAddr (s.sp - 2)]
  | _, _ => []

/-- The addresses outside pages 0 and 1 and the vectors that an instruction reads or writes: EA of a memory operand, the
pointer of JMP indirect. -/
def Instr.dataAddresses (i : Instr) (s : State) : List Word :=
  match i.operand with
  | .source x => sourceAddresses x s
  | .indirect w => [w, pointerHigh jmpIndirectPageWrap w]
  | _ => []

end Sys2Proof

namespace Sys2Proof.Machine

/-- An access to the address never reaches the ULA's registers. -/
def OutsideUla (a : Word) : Prop := regionOf a ≠ .peripheral

/-- A read of the address has no side effect on the machine: "Reads of every other address have no side effect"
(20_memory.md R88). -/
def QuietRead (a : Word) : Prop := regionOf a = .peripheral → ulaOffset a ≠ 0 ∧ ulaOffset a ≠ 4

/-- The cycles of an addressing mode in the read and write classes: base and penalty (41_addressing.md R184). -/
def modeCycles (x : Source) (crossed : Bool) : Nat :=
  match x with
  | .imm _ => 2
  | .mem (.zp _) => 3
  | .mem (.zpx _) | .mem (.zpy _) => 4
  | .mem (.abs _) => 4
  | .mem (.abx _) | .mem (.aby _) => if crossed then 5 else 4
  | .mem (.izx _) => 6
  | .mem (.izy _) => if crossed then 6 else 5

/-- The cycles of a read-modify-write (41_addressing.md R186), for the four modes it has. -/
def rmwCycles : AddrMode → Nat
  | .zp _ => 5
  | .zpx _ | .abs _ => 6
  | .abx _ => 7
  | .zpy _ | .aby _ | .izx _ | .izy _ => 0

/-- The state field that holds a general register. -/
def Reg.field : Reg → Field
  | .a => .a
  | .x => .x
  | .y => .y

/-- The stack byte that S = `sp` names. -/
def stackByte (s : State) (sp : Byte) : Byte := peek s (stackAddr sp)

/-- The effects of an exception entry from `s` to `t` through the vector at `vec`, with `ret` pushed and B = `brk`
(60_exceptions.md R410, 48_control_flow.md R353). -/
structure ExceptionEntry (vec ret : Word) (brk : Bool) (s t : State) : Prop where
  stackPointer : t.sp = s.sp - 3
  returnHigh : stackByte t s.sp = hiByte ret
  returnLow : stackByte t (s.sp - 1) = loByte ret
  status : stackByte t (s.sp - 2) = putFlag (putFlag s.p .b brk) .u true
  flags : t.p = putFlag (putFlag s.p .b brk) .i true
  target : t.pc = wordOf (peek s vec) (peek s (vec + 1))
  time : t.cycleTime = s.cycleTime + 7
  otherBytes : ∀ a, a ∉ [stackAddr s.sp, stackAddr (s.sp - 1), stackAddr (s.sp - 2)] → peek t a = peek s a
  otherFields : UnchangedBut [.sp, .ram, .p, .pc, .cycleTime, .bpHit] s t

/-- The step that follows runs the fetch-execute loop: a frame is running, no breakpoint hit is waiting and the scanline's
budget is not used up (60_exceptions.md R450; 40_execution.md R140). -/
def State.InBurst (s : State) : Prop := s.driver = .runningFrame ∧ s.bpHit = false ∧ s.cycleTime < 128

/-- No event comes before the next instruction (40_execution.md R141, steps 1 to 3). -/
def State.NoEvent (s : State) : Prop :=
  s.nmiPending = false ∧ (s.irqPending = false ∨ getFlag s.p .i = true) ∧ ¬(s.bpKind = .atAddress ∧ s.bpAddr = s.pc)

/-- R371: the undefined opcode values, which are 105. -/
def undefinedValues : List Byte :=
  [0x02, 0x03, 0x04, 0x07, 0x0B, 0x0C, 0x0F, 0x12, 0x13, 0x14, 0x17, 0x1A, 0x1B, 0x1C, 0x1F, 0x22, 0x23, 0x27, 0x2B,
   0x2F, 0x32, 0x33, 0x34, 0x37, 0x3A, 0x3B, 0x3C, 0x3F, 0x42, 0x43, 0x44, 0x47, 0x4B, 0x4F, 0x52, 0x53, 0x54, 0x57] ++
  [0x5A, 0x5B, 0x5C, 0x5F, 0x62, 0x63, 0x64, 0x67, 0x6B, 0x6F, 0x72, 0x73, 0x74, 0x77, 0x7A, 0x7B, 0x7C, 0x7F, 0x80,
   0x82, 0x83, 0x87, 0x89, 0x8B, 0x8F, 0x92, 0x93, 0x97, 0x9B, 0x9C, 0x9E, 0x9F, 0xA3, 0xA7, 0xAB, 0xAF, 0xB2, 0xB3] ++
  [0xB7, 0xBB, 0xBF, 0xC2, 0xC3, 0xC7, 0xCB, 0xCF, 0xD2, 0xD3, 0xD4, 0xD7, 0xDA, 0xDB, 0xDC, 0xDF, 0xE2, 0xE3, 0xE7,
   0xEB, 0xEF, 0xF2, 0xF3, 0xF4, 0xF7, 0xFA, 0xFB, 0xFC, 0xFF]

/-- The address an addressing mode gives, in numbers (R172 to R179). -/
def effectiveAddress (m : AddrMode) (s : State) : Nat :=
  let pointer (k : Nat) : Nat := (ramByte s (k % 256)).toNat + 256 * (ramByte s ((k + 1) % 256)).toNat
  match m with
  | .zp z => z.toNat
  | .zpx z => (z.toNat + s.x.toNat) % 256
  | .zpy z => (z.toNat + s.y.toNat) % 256
  | .abs w => w.toNat
  | .abx w => (w.toNat + s.x.toNat) % 65536
  | .aby w => (w.toNat + s.y.toNat) % 65536
  | .izx z => pointer (z.toNat + s.x.toNat)
  | .izy z => (pointer z.toNat + s.y.toNat) % 65536

/-- Whether the low-byte addition of an addressing mode overflows past 0xFF (R170). -/
def effectiveCrossing (m : AddrMode) (s : State) : Bool :=
  match m with
  | .abx w => decide (w.toNat % 256 + s.x.toNat > 0xFF)
  | .aby w => decide (w.toNat % 256 + s.y.toNat > 0xFF)
  | .izy z => decide ((ramByte s z.toNat).toNat + s.y.toNat > 0xFF)
  | _ => false

/-- The accumulator after a decimal addition, by the steps of R222. -/
def decimalSum (a m c : Nat) : Nat :=
  let al := a % 16 + m % 16 + c
  let al := if al ≥ 0x0A then (al + 0x06) % 16 + 0x10 else al
  let t := (a - a % 16) + (m - m % 16) + al
  (if t ≥ 0xA0 then t + 0x60 else t) % 256

/-- The accumulator after a decimal subtraction, by the steps of R225. -/
def decimalDifference (a m c : Int) : Int :=
  let al := a % 16 - m % 16 + c - 1
  let al := if al < 0 then (al - 0x06) % 16 - 0x10 else al
  let t := (a - a % 16) - (m - m % 16) + al
  (if t < 0 then t - 0x60 else t) % 256

/-- The number two BCD digits stand for. -/
def bcdValue (v : Byte) : Nat := v.toNat / 16 * 10 + v.toNat % 16

/-- Both nibbles are decimal digits. -/
def ValidBcd (v : Byte) : Prop := v.toNat / 16 ≤ 9 ∧ v.toNat % 16 ≤ 9

/-- The bitwise operation of a logical instruction (R250 to R252). -/
def logicBit (m : Mnemonic) (a b : Bool) : Bool :=
  match m with
  | .and => a && b
  | .ora => a || b
  | _ => a != b

/-- The result and the carry out of a modifying instruction on operand `m` with carry in `c`; no carry where C is not written
(R271 to R276). -/
def modified (i : Mnemonic) (m : Byte) (c : Bool) : Nat × Option Bool :=
  match i with
  | .asl => (m.toNat * 2 % 256, some (m.getLsbD 7))
  | .lsr => (m.toNat / 2, some (m.getLsbD 0))
  | .rol => ((m.toNat * 2 + c.toNat) % 256, some (m.getLsbD 7))
  | .ror => (m.toNat / 2 + 128 * c.toNat, some (m.getLsbD 0))
  | .inc => ((m.toNat + 1) % 256, none)
  | _ => ((m.toNat + 255) % 256, none)

/-- R290 to R294, R296 to R299: the transfers that write flags, and the register increments and decrements: which register they
write, and the value. -/
def registerResult (i : Instr) (s : State) : Option (Reg × Nat) :=
  match i with
  | .tax => some (.x, s.a.toNat)
  | .tay => some (.y, s.a.toNat)
  | .txa => some (.a, s.x.toNat)
  | .tya => some (.a, s.y.toNat)
  | .tsx => some (.x, s.sp.toNat)
  | .inx => some (.x, (s.x.toNat + 1) % 256)
  | .iny => some (.y, (s.y.toNat + 1) % 256)
  | .dex => some (.x, (s.x.toNat + 255) % 256)
  | .dey => some (.y, (s.y.toNat + 255) % 256)
  | _ => none

/-- The flag that bits 7..6 of a branch opcode select: N, V, C, Z (R340). -/
def branchFlag (op : Byte) : Flag :=
  if op.toNat / 64 = 0 then .n else if op.toNat / 64 = 1 then .v else if op.toNat / 64 = 2 then .c else .z

/-- The 16 `set_color` calls of the palette as it stands in a state (R438). -/
def colourCalls (s : State) : List OutputEvent :=
  (List.finRange 16).map fun l => .videoSetColor l (Config.paletteDecode (s.sheila[7].extractLsb' 3 3)
    (Vector.ofFn fun k : Fin 8 => s.sheila[8 + k.val]) l)

end Sys2Proof.Machine
end

