-- ==== Sys2Proof/Certificates/Slice0/Obligations.lean ====
section
/-! DEFINITION. The statements for the provers, from the numbered rules of spec/. -/

open Sys2Proof Sys2Proof.Machine

/-! ## Encoding -/

/-- R110 to R112, R114: decoding what an instruction encodes to gives the instruction, whatever follows it. -/
def Obligations.DecodeAfterEncode : Prop :=
  ∀ (i : Instr) (rest : List Byte), i.wf = true → decode (encode i ++ rest) = .ok (i, rest)

/-- R110 to R112, R114: a decoded instruction encodes to the bytes it was read from, and is well-formed. -/
def Obligations.EncodeAfterDecode : Prop :=
  ∀ (bytes rest : List Byte) (i : Instr), decode bytes = .ok (i, rest) → bytes = encode i ++ rest ∧ i.wf = true

/-- R117: every byte is an opcode, defined or undefined, and has a meaning. -/
def Obligations.EveryOpcodeHasMeaning : Prop :=
  ∀ (op b c : Byte) (rest : List Byte), ∃ i rest',
    decode (op :: b :: c :: rest) = .ok (i, rest') ∧ i.opcode = op ∧ ∀ s, ∃ t, exec i s = .next t

/-- R371: exactly the listed values are undefined, whatever bytes follow. -/
def Obligations.UndefinedOpcodesAreListed : Prop :=
  undefinedValues.length = 105 ∧
    ∀ op b c : Byte, (decodeOpcode op b c).mnemonic = .undefined ↔ op ∈ undefinedValues

/-- R114, R112: words of each family, written out from the opcode table. -/
def Obligations.SampleWordsDecode : Prop :=
  decode [0xA9, 0x41] = .ok (.ldaImm 0x41, []) ∧ decode [0x96, 0xF8] = .ok (.stxZpy 0xF8, []) ∧
  decode [0x7D, 0x34, 0x12] = .ok (.adcAbx 0x1234, []) ∧ decode [0xD1, 0x40] = .ok (.cmpIzy 0x40, []) ∧
  decode [0x41, 0x12] = .ok (.eorIzx 0x12, []) ∧ decode [0x2C, 0x00, 0xFE] = .ok (.bitAbs 0xFE00, []) ∧
  decode [0x6A] = .ok (.rorAcc, []) ∧ decode [0xDE, 0xF0, 0x12] = .ok (.decAbx 0x12F0, []) ∧
  decode [0xBA] = .ok (.tsx, []) ∧ decode [0xF8] = .ok (.sed, []) ∧ decode [0x28] = .ok (.plp, []) ∧
  decode [0xD0, 0xF8] = .ok (.bne 0xF8, []) ∧ decode [0x6C, 0xFF, 0x02] = .ok (.jmpInd 0x02FF, []) ∧
  decode [0x00, 0xEA] = .ok (.brk, [0xEA]) ∧ decode [0x89, 0x01] = .ok (.undef89, [0x01])

/-! ## The step -/

/-- R141, R145: in a burst, with no event first, the step is exec of the instruction at PC in the state its fetch leaves: PC past
it, the opcode in `current_instruction`; the fetch touches only what reads touch. The driver's
part (a running frame) is the model's choice, log 7. -/
def Obligations.StepRunsDecodedInstruction : Prop :=
  ∀ (s : State) (i : Instr) (rest : List Byte), s.InBurst → s.NoEvent →
    decode [peek s s.pc, peek s (s.pc + 1), peek s (s.pc + 2)] = .ok (i, rest) → i.wf = true →
    step s = exec i (fetchInstr s).2 ∧ (fetchInstr s).1 = i ∧
    (fetchInstr s).2.pc = s.pc + BitVec.ofNat 16 i.length ∧ (fetchInstr s).2.currentInstruction = peek s s.pc ∧
    UnchangedBut [.pc, .currentInstruction, .bpHit, .intStatus, .irqPending] s (fetchInstr s).2 ∧
    ((∀ k, k < i.length → QuietRead (s.pc + BitVec.ofNat 16 k)) →
      UnchangedBut [.pc, .currentInstruction, .bpHit] s (fetchInstr s).2) ∧
    (s.bpKind ≠ .onRead → (fetchInstr s).2.bpHit = s.bpHit)

/-- R16, R401: no step faults and none is refused. -/
def Obligations.EveryStepGoesOn : Prop := ∀ s : State, ∃ t, step s = .next t

/-- The invariant is kept by every step, from every state that has it; its memory clause is the model's form (log 1, 12). -/
def Obligations.StepKeepsInvariant : Prop := ∀ s t : State, s.Inv → step s = .next t → t.Inv

/-- The state after power-on has the invariant. -/
def Obligations.ResetHasInvariant : Prop := State.reset.Inv

/-- R500: the power-on values. -/
def Obligations.PowerOnValues : Prop :=
  let r := State.reset
  r.a = 0 ∧ r.x = 0 ∧ r.y = 0 ∧ r.sp = 0xFF ∧ r.p = 0x24 ∧
  r.pc = (read16 vectorReset r).1 ∧ r.cycleTime = 0 ∧
  r.irqPending = false ∧ r.nmiPending = false ∧ r.bpKind = .none ∧ r.bpAddr = 0 ∧ r.bpHit = false ∧
  r.currentInstruction = 0 ∧ (∀ a : Word, a.toNat < 0x8000 → peek r a = Config.initialRam a.toNat) ∧
  r.osRom = none ∧ (∀ b : Fin 16, r.pagedRoms[b] = none) ∧ r.page = 0 ∧ (∀ k : Fin 16, r.sheila[k] = 0) ∧
  r.intStatus = 0x02 ∧ r.enableMask = 0 ∧ r.scanline = 0 ∧ r.cassetteCounter = 0 ∧ r.dataShiftHasData = false ∧
  (∀ k : Fin 14, r.keyboard[k] = 0) ∧ r.output = []

/-- R501, R502: the host's restart, taken in Idle as the next host call (the list of calls is the model's choice, log 8). -/
def Obligations.RestartState : Prop :=
  ∀ (s : State) (rest : List HostCall), s.driver = .idle → s.calls = .restart :: rest → ∃ t, step s = .next t ∧
    t.a = 0 ∧ t.x = 0 ∧ t.y = 0 ∧ t.p = 0x24 ∧ t.sp = 0xFF ∧ t.cycleTime = 0 ∧
    t.pc = wordOf (peek s 0xFFFC) (peek s 0xFFFD) ∧ t.bpHit = false ∧ t.nmiPending = false ∧
    t.irqPending = (s.intStatus &&& s.enableMask &&& 0x7C != 0) ∧ t.calls = rest ∧
    UnchangedBut [.a, .x, .y, .p, .sp, .cycleTime, .pc, .bpHit, .nmiPending, .irqPending, .calls] s t

/-! ## Operands and accesses -/

/-- R172 to R179: EA and the page crossing of every addressing mode; the pointer reads change at most the breakpoint hit. -/
def Obligations.EffectiveAddresses : Prop :=
  ∀ (m : AddrMode) (s : State),
    (address m s).ea.toNat = effectiveAddress m s ∧ (address m s).crossed = effectiveCrossing m s ∧
    UnchangedBut [.bpHit] s (address m s).st ∧ (s.bpKind ≠ .onRead → (address m s).st = s)

/-- R188: an operand read gives the immediate byte, or the byte at EA; it touches only what one read of EA touches. -/
def Obligations.OperandRead : Prop :=
  (∀ (i : Byte) (s : State), (readOperand (.imm i) s).val = i ∧ (readOperand (.imm i) s).st = s) ∧
  ∀ (m : AddrMode) (s : State),
    (readOperand (.mem m) s).val = peek s (address m s).ea ∧
    (readOperand (.mem m) s).crossed = (address m s).crossed ∧
    UnchangedBut [.bpHit, .intStatus, .irqPending] s (readOperand (.mem m) s).st ∧
    (QuietRead (address m s).ea → UnchangedBut [.bpHit] s (readOperand (.mem m) s).st) ∧
    (s.bpKind ≠ .onRead → (readOperand (.mem m) s).st = readEffect (address m s).ea s)

/-- R88, R428, R429: the side effects of a checked read: none but at peripheral offset 0, which clears the power-on bit, and
offset 4, which clears the receive bit and re-evaluates the IRQ level; the breakpoint check is R150's. -/
def Obligations.ReadSideEffects : Prop :=
  ∀ (a : Word) (s : State),
    (Machine.read a s).1 = peek s a ∧ UnchangedBut [.bpHit, .intStatus, .irqPending] s (Machine.read a s).2 ∧
    (Machine.read a s).2.bpHit = (s.bpHit || (s.bpKind == .onRead && s.bpAddr == a)) ∧
    (QuietRead a → UnchangedBut [.bpHit] s (Machine.read a s).2) ∧
    (regionOf a = .peripheral → ulaOffset a = 0 →
      (Machine.read a s).2.intStatus = s.intStatus &&& 0xFD ∧ (Machine.read a s).2.irqPending = s.irqPending) ∧
    (regionOf a = .peripheral → ulaOffset a = 4 →
      (Machine.read a s).2.intStatus = s.intStatus &&& 0xEF ∧
      (Machine.read a s).2.irqPending = (s.intStatus &&& 0xEF &&& s.enableMask &&& 0x7C != 0))

/-- R75, R76, R80, R151, R154: a write of RAM is read back and leaves every other byte alone; a write of a ROM region changes
nothing; a checked write is that write followed by the breakpoint check, which changes nothing but the hit. -/
def Obligations.WriteThenRead : Prop :=
  ∀ (a : Word) (v : Byte) (s : State),
    (a.toNat < 0x8000 → peek (machineWrite a v s) a = v ∧ (∀ b, b ≠ a → peek (machineWrite a v s) b = peek s b) ∧
      UnchangedBut [.ram] s (machineWrite a v s)) ∧
    ((0x8000 ≤ a.toNat ∧ a.toNat < 0xFE00) ∨ 0xFF00 ≤ a.toNat → machineWrite a v s = s) ∧
    UnchangedBut [.bpHit] (machineWrite a v s) (Machine.write a v s) ∧
    (Machine.write a v s).bpHit = (s.bpHit || (s.bpKind == .onWrite && s.bpAddr == a))

/-- R76 to R81: what each region outside the peripheral window reads as; in the keyboard page a bit reads 1 exactly when it is
set in a row whose address bit is 0. -/
def Obligations.RegionReads : Prop :=
  ∀ (a : Word) (s : State),
    (a.toNat < 0x8000 → peek s a = (Memory.get? s.ram a.toNat).getD (Config.initialRam a.toNat)) ∧
    ((0xC000 ≤ a.toNat ∧ a.toNat < 0xFE00) ∨ 0xFF00 ≤ a.toNat →
      peek s a = match s.osRom with
        | some r => Rom.get r (a.toNat - 0xC000)
        | none => Config.unmappedReadByte) ∧
    (0x8000 ≤ a.toNat → a.toNat < 0xC000 → s.page ≠ 8 →
      peek s a = match s.pagedRoms[if s.page = 11 then (10 : Fin 16) else s.page.toFin] with
        | some r => Rom.get r (a.toNat - 0x8000)
        | none => Config.unmappedReadByte) ∧
    (0x8000 ≤ a.toNat → a.toNat < 0xC000 → s.page = 8 → ∀ k, k < 8 →
      ((peek s a).getLsbD k = true ↔ ∃ r : Fin 14, a.getLsbD r = false ∧ s.keyboard[r].getLsbD k = true))

/-! ## Loads, stores, arithmetic, logic -/

/-- R201 to R203: LDA, LDX, LDY. -/
def Obligations.LoadResult : Prop :=
  ∀ (i : Instr) (s : State) (x : Source) (r : Reg),
    (i.mnemonic, r) ∈ [(Mnemonic.lda, Reg.a), (.ldx, .x), (.ldy, .y)] → i.operand = .source x →
    let o := readOperand x s
    ∃ t, exec i s = .next t ∧ getReg r t = o.val ∧ getFlag t.p .n = o.val.getLsbD 7 ∧ getFlag t.p .z = (o.val == 0) ∧
      FlagsUnchangedBut [.n, .z] s.p t.p ∧ t.cycleTime = s.cycleTime + modeCycles x o.crossed ∧
      UnchangedBut [r.field, .p, .cycleTime] o.st t

/-- R204 to R206: STA, STX, STY: one checked write of the register at EA, no flag, the write class's cost at the default
timing (log 4); where EA is RAM the byte is stored, where it is ROM nothing changes. -/
def Obligations.StoreResult : Prop :=
  ∀ (i : Instr) (s : State) (m : AddrMode) (r : Reg),
    (i.mnemonic, r) ∈ [(Mnemonic.sta, Reg.a), (.stx, .x), (.sty, .y)] → i.operand = .source (.mem m) →
    let e := address m s
    ∃ t, exec i s = .next t ∧ UnchangedBut [.cycleTime] (Machine.write e.ea (getReg r s) e.st) t ∧ t.p = s.p ∧
      t.cycleTime = s.cycleTime + modeCycles (.mem m) e.crossed ∧
      (regionOf e.ea = .ram → peek t e.ea = getReg r s ∧ ∀ a, a ≠ e.ea → peek t a = peek s a) ∧
      (regionOf e.ea = .pagedRom ∨ regionOf e.ea = .osRom → ∀ a, peek t a = peek s a)

/-- R220, R221: ADC with D = 0; V is the signed overflow. -/
def Obligations.AdcBinaryResult : Prop :=
  ∀ (i : Instr) (s : State) (x : Source), i.mnemonic = .adc → i.operand = .source x → getFlag s.p .d = false →
    let o := readOperand x s
    let sum := s.a.toNat + o.val.toNat + (getFlag s.p .c).toNat
    let signed := s.a.toInt + o.val.toInt + (getFlag s.p .c).toNat
    ∃ t, exec i s = .next t ∧ t.a.toNat = sum % 256 ∧ getFlag t.p .c = decide (sum > 0xFF) ∧
      getFlag t.p .v = decide (signed < -128 ∨ 127 < signed) ∧ getFlag t.p .n = t.a.getLsbD 7 ∧
      getFlag t.p .z = (t.a == 0) ∧ FlagsUnchangedBut [.n, .v, .z, .c] s.p t.p ∧
      t.cycleTime = s.cycleTime + modeCycles x o.crossed ∧ UnchangedBut [.a, .p, .cycleTime] o.st t

/-- R220, R222: ADC with D = 1 at the default DECIMAL_FLAGS (log 4): the corrected sum, the flags of the binary sum. -/
def Obligations.AdcDecimalResult : Prop :=
  ∀ (i : Instr) (s : State) (x : Source), i.mnemonic = .adc → i.operand = .source x → getFlag s.p .d = true →
    let o := readOperand x s
    let sum := s.a.toNat + o.val.toNat + (getFlag s.p .c).toNat
    let signed := s.a.toInt + o.val.toInt + (getFlag s.p .c).toNat
    ∃ t, exec i s = .next t ∧ t.a.toNat = decimalSum s.a.toNat o.val.toNat (getFlag s.p .c).toNat ∧
      getFlag t.p .c = decide (sum > 0xFF) ∧ getFlag t.p .v = decide (signed < -128 ∨ 127 < signed) ∧
      getFlag t.p .n = sum.testBit 7 ∧ getFlag t.p .z = decide (sum % 256 = 0) ∧
      FlagsUnchangedBut [.n, .v, .z, .c] s.p t.p ∧
      t.cycleTime = s.cycleTime + modeCycles x o.crossed ∧ UnchangedBut [.a, .p, .cycleTime] o.st t

/-- R223, R224: SBC with D = 0; C is no borrow, V the signed overflow. -/
def Obligations.SbcBinaryResult : Prop :=
  ∀ (i : Instr) (s : State) (x : Source), i.mnemonic = .sbc → i.operand = .source x → getFlag s.p .d = false →
    let o := readOperand x s
    let borrow : Int := 1 - (getFlag s.p .c).toNat
    let diff : Int := (s.a.toNat : Int) - o.val.toNat - borrow
    let signed := s.a.toInt - o.val.toInt - borrow
    ∃ t, exec i s = .next t ∧ (t.a.toNat : Int) = diff % 256 ∧ getFlag t.p .c = decide (diff ≥ 0) ∧
      getFlag t.p .v = decide (signed < -128 ∨ 127 < signed) ∧ getFlag t.p .n = t.a.getLsbD 7 ∧
      getFlag t.p .z = (t.a == 0) ∧ FlagsUnchangedBut [.n, .v, .z, .c] s.p t.p ∧
      t.cycleTime = s.cycleTime + modeCycles x o.crossed ∧ UnchangedBut [.a, .p, .cycleTime] o.st t

/-- R223, R225: SBC with D = 1: the corrected difference, the flags of the binary difference. -/
def Obligations.SbcDecimalResult : Prop :=
  ∀ (i : Instr) (s : State) (x : Source), i.mnemonic = .sbc → i.operand = .source x → getFlag s.p .d = true →
    let o := readOperand x s
    let borrow : Int := 1 - (getFlag s.p .c).toNat
    let diff : Int := (s.a.toNat : Int) - o.val.toNat - borrow
    let signed := s.a.toInt - o.val.toInt - borrow
    ∃ t, exec i s = .next t ∧
      (t.a.toNat : Int) = decimalDifference s.a.toNat o.val.toNat (getFlag s.p .c).toNat ∧
      getFlag t.p .c = decide (diff ≥ 0) ∧ getFlag t.p .v = decide (signed < -128 ∨ 127 < signed) ∧
      getFlag t.p .n = decide (diff % 256 ≥ 128) ∧ getFlag t.p .z = decide (diff % 256 = 0) ∧
      FlagsUnchangedBut [.n, .v, .z, .c] s.p t.p ∧
      t.cycleTime = s.cycleTime + modeCycles x o.crossed ∧ UnchangedBut [.a, .p, .cycleTime] o.st t

/-- D11 of 92_eei_decisions.md, with R222 and R225: on decimal digits the corrections give the decimal sum and difference
modulo 100. -/
def Obligations.DecimalArithmeticIsDecimal : Prop :=
  ∀ (a m : Byte) (c : Bool), ValidBcd a → ValidBcd m →
    ValidBcd (adc true a m c).val ∧ bcdValue (adc true a m c).val = (bcdValue a + bcdValue m + c.toNat) % 100 ∧
    ValidBcd (sbc true a m c).val ∧
      (bcdValue (sbc true a m c).val : Int) = ((bcdValue a : Int) - bcdValue m - (1 - c.toNat)) % 100

/-- R227 to R230: CMP, CPX, CPY at the default COMPARE_WRITES_V (log 4): C is no borrow, Z equality, V the signed overflow. -/
def Obligations.CompareResult : Prop :=
  ∀ (i : Instr) (s : State) (x : Source) (r : Reg),
    (i.mnemonic, r) ∈ [(Mnemonic.cmp, Reg.a), (.cpx, .x), (.cpy, .y)] → i.operand = .source x →
    let o := readOperand x s
    let signed := (getReg r s).toInt - o.val.toInt
    ∃ t, exec i s = .next t ∧ getFlag t.p .c = decide (o.val.toNat ≤ (getReg r s).toNat) ∧
      getFlag t.p .z = (getReg r s == o.val) ∧ getFlag t.p .n = (getReg r s - o.val).getLsbD 7 ∧
      getFlag t.p .v = decide (signed < -128 ∨ 127 < signed) ∧ FlagsUnchangedBut [.n, .v, .z, .c] s.p t.p ∧
      t.cycleTime = s.cycleTime + modeCycles x o.crossed ∧ UnchangedBut [.p, .cycleTime] o.st t

/-- R250 to R252: AND, ORA, EOR. -/
def Obligations.LogicResult : Prop :=
  ∀ (i : Instr) (s : State) (x : Source), i.mnemonic ∈ [.and, .ora, .eor] → i.operand = .source x →
    let o := readOperand x s
    ∃ t, exec i s = .next t ∧
      (∀ k, k < 8 → t.a.getLsbD k = logicBit i.mnemonic (s.a.getLsbD k) (o.val.getLsbD k)) ∧
      getFlag t.p .n = t.a.getLsbD 7 ∧ getFlag t.p .z = (t.a == 0) ∧ FlagsUnchangedBut [.n, .z] s.p t.p ∧
      t.cycleTime = s.cycleTime + modeCycles x o.crossed ∧ UnchangedBut [.a, .p, .cycleTime] o.st t

/-- R253: BIT. -/
def Obligations.BitResult : Prop :=
  ∀ (i : Instr) (s : State) (x : Source), i.mnemonic = .bit → i.operand = .source x →
    let o := readOperand x s
    ∃ t, exec i s = .next t ∧ getFlag t.p .n = o.val.getLsbD 7 ∧ getFlag t.p .v = o.val.getLsbD 6 ∧
      getFlag t.p .z = (s.a &&& o.val == 0) ∧ FlagsUnchangedBut [.n, .v, .z] s.p t.p ∧
      t.cycleTime = s.cycleTime + modeCycles x false ∧ UnchangedBut [.p, .cycleTime] o.st t

/-! ## Shifts, increments, transfers, flags -/

/-- R270 to R276, memory forms: one read and one write of EA, N and Z from the result, C where the rule writes it, the fixed
cost; where EA is RAM the result is stored and no other byte changes, where it is ROM none does. -/
def Obligations.ReadModifyWriteResult : Prop :=
  ∀ (i : Instr) (s : State) (m : AddrMode),
    i.mnemonic ∈ [.asl, .lsr, .rol, .ror, .inc, .dec] → i.operand = .source (.mem m) →
    let e := address m s
    let r := Machine.read e.ea e.st
    let out := modified i.mnemonic r.1 (getFlag s.p .c)
    ∃ t, exec i s = .next t ∧
      UnchangedBut [.p, .cycleTime] (Machine.write e.ea (BitVec.ofNat 8 out.1) r.2) t ∧
      getFlag t.p .n = out.1.testBit 7 ∧ getFlag t.p .z = decide (out.1 = 0) ∧
      getFlag t.p .c = out.2.getD (getFlag s.p .c) ∧ FlagsUnchangedBut [.n, .z, .c] s.p t.p ∧
      t.cycleTime = s.cycleTime + rmwCycles m ∧
      (regionOf e.ea = .ram →
        peek t e.ea = BitVec.ofNat 8 out.1 ∧ ∀ a, a ≠ e.ea → peek t a = peek s a) ∧
      (regionOf e.ea = .pagedRom ∨ regionOf e.ea = .osRom → ∀ a, peek t a = peek s a)

/-- R270 to R274, accumulator forms. -/
def Obligations.AccumulatorShiftResult : Prop :=
  ∀ (i : Instr) (s : State), i ∈ [.aslAcc, .lsrAcc, .rolAcc, .rorAcc] →
    let out := modified i.mnemonic s.a (getFlag s.p .c)
    ∃ t, exec i s = .next t ∧ t.a.toNat = out.1 ∧ getFlag t.p .n = out.1.testBit 7 ∧
      getFlag t.p .z = decide (out.1 = 0) ∧ some (getFlag t.p .c) = out.2 ∧
      FlagsUnchangedBut [.n, .z, .c] s.p t.p ∧ t.cycleTime = s.cycleTime + 2 ∧ UnchangedBut [.a, .p, .cycleTime] s t

/-- R290 to R294, R296 to R299: TAX, TAY, TXA, TYA, TSX, INX, INY, DEX, DEY. -/
def Obligations.RegisterInstructionResult : Prop :=
  ∀ (i : Instr) (s : State) (r : Reg) (v : Nat), registerResult i s = some (r, v) →
    ∃ t, exec i s = .next t ∧ (getReg r t).toNat = v ∧ getFlag t.p .n = decide (v ≥ 128) ∧
      getFlag t.p .z = decide (v = 0) ∧ FlagsUnchangedBut [.n, .z] s.p t.p ∧ t.cycleTime = s.cycleTime + 2 ∧
      UnchangedBut [r.field, .p, .cycleTime] s t ∧ ∀ a, peek t a = peek s a

/-- R295, R307: TXS writes S and no flag; NOP writes nothing; both take 2 cycles. -/
def Obligations.TxsAndNopResult : Prop :=
  ∀ s : State,
    (∃ t, exec .txs s = .next t ∧ t.sp = s.x ∧ t.cycleTime = s.cycleTime + 2 ∧ UnchangedBut [.sp, .cycleTime] s t ∧
      ∀ a, peek t a = peek s a) ∧
    (∃ t, exec .nop s = .next t ∧ t.cycleTime = s.cycleTime + 2 ∧ UnchangedBut [.cycleTime] s t ∧
      ∀ a, peek t a = peek s a)

/-- R300 to R306: the flag instructions. -/
def Obligations.FlagInstructionResult : Prop :=
  ∀ (i : Instr) (f : Flag) (b : Bool) (s : State),
    (i, f, b) ∈ [(Instr.clc, Flag.c, false), (.sec, .c, true), (.cli, .i, false), (.sei, .i, true), (.cld, .d, false),
      (.sed, .d, true), (.clv, .v, false)] →
    ∃ t, exec i s = .next t ∧ getFlag t.p f = b ∧ FlagsUnchangedBut [f] s.p t.p ∧ t.cycleTime = s.cycleTime + 2 ∧
      UnchangedBut [.p, .cycleTime] s t ∧ ∀ a, peek t a = peek s a

/-- R370: an undefined opcode is a 2-cycle no-op that leaves one log event, which the rule lets a model record (log 10). -/
def Obligations.UndefinedOpcodeResult : Prop :=
  ∀ (i : Instr) (s : State), i.mnemonic = .undefined →
    ∃ t, exec i s = .next t ∧ t.cycleTime = s.cycleTime + 2 ∧
      t.output = s.output ++ [.undefinedOpcode s.currentInstruction (s.pc - 1)] ∧
      UnchangedBut [.cycleTime, .output] s t ∧ ∀ a, peek t a = peek s a

/-! ## The stack -/

/-- R320, R321: Push writes at `0x0100 + S` and then decrements S; Pull increments S and then reads; both wrap, and a push
never writes outside 0x0100..0x01FF. -/
def Obligations.StackPrimitives : Prop :=
  ∀ (v : Byte) (s : State),
    (stackAddr s.sp).toNat = 0x0100 + s.sp.toNat ∧ (push v s).sp.toNat = (s.sp.toNat + 255) % 256 ∧
    stackByte (push v s) s.sp = v ∧ (∀ a, a ≠ stackAddr s.sp → peek (push v s) a = peek s a) ∧
    UnchangedBut [.sp, .ram, .bpHit] s (push v s) ∧
    (pull s).1 = stackByte s (s.sp + 1) ∧ (pull s).2.sp.toNat = (s.sp.toNat + 1) % 256 ∧
    UnchangedBut [.sp, .bpHit] s (pull s).2 ∧ (∀ a, peek (pull s).2 a = peek s a)

/-- The source's property of the stack (47_stack.md, 95_test_vectors.md E8): 256 pushes bring S back, and only the bytes of page 1
were written. -/
def Obligations.StackWrapsInPageOne : Prop :=
  ∀ (vs : List Byte) (s : State), vs.length = 256 →
    let t := vs.foldl (fun u v => push v u) s
    t.sp = s.sp ∧ (∀ a, ¬(0x0100 ≤ a.toNat ∧ a.toNat ≤ 0x01FF) → peek t a = peek s a) ∧
      UnchangedBut [.ram, .bpHit] s t

/-- R322 to R325: PHA pushes A, PHP pushes P with bits 4 and 5 set; PLA writes A, N and Z, PLP all eight bits of P verbatim. -/
def Obligations.StackInstructionResult : Prop :=
  ∀ s : State,
    (∀ (i : Instr) (v : Byte), (i, v) ∈ [(Instr.pha, s.a), (.php, s.p ||| 0x30)] →
      ∃ t, exec i s = .next t ∧ stackByte t s.sp = v ∧ t.sp = s.sp - 1 ∧ t.cycleTime = s.cycleTime + 3 ∧
        UnchangedBut [.ram, .sp, .cycleTime, .bpHit] s t ∧ ∀ a, a ≠ stackAddr s.sp → peek t a = peek s a) ∧
    (∃ t, exec .pla s = .next t ∧ t.a = stackByte s (s.sp + 1) ∧ getFlag t.p .n = t.a.getLsbD 7 ∧
      getFlag t.p .z = (t.a == 0) ∧ FlagsUnchangedBut [.n, .z] s.p t.p ∧ t.sp = s.sp + 1 ∧
      t.cycleTime = s.cycleTime + 4 ∧ UnchangedBut [.a, .p, .sp, .cycleTime, .bpHit] s t ∧ ∀ a, peek t a = peek s a) ∧
    (∃ t, exec .plp s = .next t ∧ t.p = stackByte s (s.sp + 1) ∧ t.sp = s.sp + 1 ∧
      t.cycleTime = s.cycleTime + 4 ∧ UnchangedBut [.p, .sp, .cycleTime, .bpHit] s t ∧ ∀ a, peek t a = peek s a)

/-! ## Control flow -/

/-- R340 to R348: the eight branches; PC is the address of the instruction after the branch. -/
def Obligations.BranchResult : Prop :=
  ∀ (i : Instr) (d : Byte) (s : State), i.operand = .relative d →
    let taken := getFlag s.p (branchFlag i.opcode) = i.opcode.getLsbD 5
    let target := ((s.pc.toNat : Int) + d.toInt) % 65536
    ∃ t, exec i s = .next t ∧
      (taken → (t.pc.toNat : Int) = target ∧
        t.cycleTime = s.cycleTime + (if target / 256 = s.pc.toNat / 256 then 3 else 4)) ∧
      (¬taken → t.pc = s.pc ∧ t.cycleTime = s.cycleTime + 2) ∧
      UnchangedBut [.pc, .cycleTime] s t ∧ ∀ a, peek t a = peek s a

/-- R349, R350, R183: JMP absolute, and JMP indirect with the high byte of the pointer from the pointer's own page
(the default of JMP_INDIRECT_PAGE_WRAP, log 4). -/
def Obligations.JumpResult : Prop :=
  ∀ (w : Word) (s : State),
    (∃ t, exec (.jmpAbs w) s = .next t ∧ t.pc = w ∧ t.cycleTime = s.cycleTime + 3 ∧ UnchangedBut [.pc, .cycleTime] s t ∧
      ∀ a, peek t a = peek s a) ∧
    (let high := BitVec.ofNat 16 (w.toNat / 256 * 256 + (w.toNat % 256 + 1) % 256)
     ∃ t, exec (.jmpInd w) s = .next t ∧ t.cycleTime = s.cycleTime + 5 ∧
      t.pc = wordOf (peek s w) (peek (readEffect w s) high) ∧
      UnchangedBut [.pc, .cycleTime, .bpHit, .intStatus, .irqPending] s t ∧
      (QuietRead w → QuietRead high → UnchangedBut [.pc, .cycleTime, .bpHit] s t ∧ ∀ a, peek t a = peek s a))

/-- R351, R352: JSR pushes the address of its last byte, high byte first; RTS pulls an address, low byte first, and adds 1. -/
def Obligations.SubroutineResult : Prop :=
  ∀ (w : Word) (s : State),
    (∃ t, exec (.jsr w) s = .next t ∧ t.pc = w ∧ t.sp = s.sp - 2 ∧
      stackByte t s.sp = hiByte (s.pc - 1) ∧ stackByte t (s.sp - 1) = loByte (s.pc - 1) ∧
      t.cycleTime = s.cycleTime + 6 ∧ UnchangedBut [.pc, .sp, .ram, .cycleTime, .bpHit] s t ∧
      ∀ a, a ∉ [stackAddr s.sp, stackAddr (s.sp - 1)] → peek t a = peek s a) ∧
    (∃ t, exec .rts s = .next t ∧ t.pc = wordOf (stackByte s (s.sp + 1)) (stackByte s (s.sp + 2)) + 1 ∧
      t.sp = s.sp + 2 ∧ t.cycleTime = s.cycleTime + 6 ∧ UnchangedBut [.pc, .sp, .cycleTime, .bpHit] s t ∧
      ∀ a, peek t a = peek s a)

/-- R351, R352: RTS after a subroutine that restores S and leaves the two stack bytes alone resumes after the JSR. -/
def Obligations.RtsUndoesJsr : Prop :=
  ∀ (w : Word) (s t u : State), exec (.jsr w) s = .next t → u.sp = t.sp →
    stackByte u s.sp = stackByte t s.sp → stackByte u (s.sp - 1) = stackByte t (s.sp - 1) →
    ∃ v, exec .rts u = .next v ∧ v.pc = s.pc ∧ v.sp = s.sp

/-- R353: BRK at the default BRK_PUSH_OFFSET (log 4); PC is the opcode's address plus 1, so the address plus 2 is pushed. -/
def Obligations.BrkResult : Prop :=
  ∀ s : State, ∃ t, exec .brk s = .next t ∧ ExceptionEntry 0xFFFE (s.pc + 1) true s t

/-- R354: RTI restores P verbatim and adds 1 to the popped address. -/
def Obligations.RtiResult : Prop :=
  ∀ s : State, ∃ t, exec .rti s = .next t ∧ t.p = stackByte s (s.sp + 1) ∧
    t.pc = wordOf (stackByte s (s.sp + 2)) (stackByte s (s.sp + 3)) + 1 ∧ t.sp = s.sp + 3 ∧
    t.cycleTime = s.cycleTime + 6 ∧ UnchangedBut [.p, .pc, .sp, .cycleTime, .bpHit] s t ∧ ∀ a, peek t a = peek s a

/-! ## Events -/

/-- R402, R403, R410, R155: in a burst a latched NMI is entered first, whatever I holds, and is one-shot; with none latched, a
pending IRQ is entered when I is clear, before any breakpoint at PC, and stays pending. -/
def Obligations.InterruptEntry : Prop :=
  ∀ s : State, s.InBurst →
    (s.nmiPending = true → ∃ t, step s = .next (t.setNmi false) ∧ ExceptionEntry 0xFFFA (s.pc - 1) false s t) ∧
    (s.nmiPending = false → s.irqPending = true → getFlag s.p .i = false →
      ∃ t, step s = .next t ∧ ExceptionEntry 0xFFFE (s.pc - 1) false s t)

/-- R412: RTI after an interrupt entry, in a handler's state that has S and the three stacked bytes as the entry left them,
resumes at the interrupted PC with the interrupted P, bit 4 clear and bit 5 set. -/
def Obligations.RtiResumesInterrupted : Prop :=
  ∀ (vec : Word) (s t u : State), ExceptionEntry vec (s.pc - 1) false s t → u.sp = t.sp →
    (∀ k : Byte, k ∈ [s.sp, s.sp - 1, s.sp - 2] → stackByte u k = stackByte t k) →
    ∃ v, exec .rti u = .next v ∧ v.pc = s.pc ∧ v.sp = s.sp ∧ v.p = putFlag (putFlag s.p .b false) .u true

/-- R149, R452: an address breakpoint at PC stops the burst with nothing executed; the next step returns the breakpoint to the
host and clears the hit, with no bookkeeping done. The event that reports it is the model's choice, log 10. -/
def Obligations.AddressBreakpointStops : Prop :=
  ∀ s : State, s.InBurst → s.nmiPending = false → (s.irqPending = false ∨ getFlag s.p .i = true) →
    s.bpKind = .atAddress → s.bpAddr = s.pc →
    ∃ t u, step s = .next t ∧ t.bpHit = true ∧ UnchangedBut [.bpHit] s t ∧
      step t = .next u ∧ u.bpHit = false ∧ u.driver = .idle ∧ u.output = s.output ++ [.frameReturned .breakpoint] ∧
      UnchangedBut [.driver, .output] s u

/-! ## The ULA -/

/-- R421, R422, R433: a write of offset 0 sets the mask, a write of offset 4 the cassette data register and its flag; both
re-evaluate the IRQ level. -/
def Obligations.EnableAndDataWrites : Prop :=
  ∀ (a : Word) (v : Byte) (s : State), regionOf a = .peripheral →
    let t := machineWrite a v s
    (ulaOffset a = 0 → t.enableMask = v ∧ t.sheila = s.sheila.set 0 v ∧
      t.irqPending = (s.intStatus &&& v &&& 0x7C != 0) ∧ UnchangedBut [.enableMask, .sheila, .irqPending] s t) ∧
    (ulaOffset a = 4 → t.sheila = s.sheila.set 4 v ∧ t.dataShiftHasData = true ∧ t.intStatus = s.intStatus &&& 0xDF ∧
      t.irqPending = (s.intStatus &&& 0xDF &&& s.enableMask &&& 0x7C != 0) ∧
      UnchangedBut [.sheila, .dataShiftHasData, .intStatus, .irqPending] s t)

/-- R428, R435, R436, R429: what each peripheral offset reads as. -/
def Obligations.PeripheralReads : Prop :=
  ∀ (a : Word) (s : State), regionOf a = .peripheral →
    (ulaOffset a = 0 → (∀ k, 1 ≤ k → k ≤ 6 → (peek s a).getLsbD k = s.intStatus.getLsbD k) ∧
      (peek s a).getLsbD 0 = (s.intStatus &&& s.enableMask &&& 0x7C != 0) ∧ (peek s a).getLsbD 7 = true) ∧
    ((ulaOffset a).val % 2 = 1 → peek s a = match s.osRom with
      | some r => Rom.get r (a.toNat - 0xC000)
      | none => Config.unmappedReadByte) ∧
    ((ulaOffset a).val % 2 = 0 → ulaOffset a ≠ 0 → peek s a = s.sheila[ulaOffset a])

/-- R430: the page-select write, the paging restriction and the acknowledge bits; a refused switch still acknowledges. -/
def Obligations.PageWrite : Prop :=
  ∀ (a : Word) (v : Byte) (s : State), regionOf a = .peripheral → ulaOffset a = 5 →
    let t := machineWrite a v s
    let new := v.toNat % 16
    t.page.toNat = (if 8 ≤ s.page.toNat ∧ s.page.toNat ≤ 11 ∧ new < 8 then s.page.toNat else new) ∧
      t.sheila = s.sheila.set 5 v ∧
      (∀ k, k < 8 → t.intStatus.getLsbD k =
        (s.intStatus.getLsbD k && !((k == 2 && v.getLsbD 4) || (k == 3 && v.getLsbD 5) || (k == 6 && v.getLsbD 6)))) ∧
      t.irqPending = (t.intStatus &&& s.enableMask &&& 0x7C != 0) ∧
      UnchangedBut [.page, .sheila, .intStatus, .irqPending] s t

/-- R434, R438: the mode/control write. -/
def Obligations.ControlWrite : Prop :=
  ∀ (a : Word) (v : Byte) (s : State), regionOf a = .peripheral → ulaOffset a = 7 →
    let t := machineWrite a v s
    let entersWrite := s.sheila[7].extractLsb' 1 2 ≠ 2 ∧ v.extractLsb' 1 2 = 2
    t.sheila = s.sheila.set 7 v ∧
      (v.extractLsb' 3 3 ≠ s.sheila[7].extractLsb' 3 3 →
        t.output = s.output ++ .videoSetMode (v.extractLsb' 3 3) :: colourCalls t) ∧
      (v.extractLsb' 3 3 = s.sheila[7].extractLsb' 3 3 → t.output = s.output) ∧
      (entersWrite → t.dataShiftHasData = false ∧ t.intStatus = s.intStatus ||| 0x20 ∧
        t.irqPending = (t.intStatus &&& s.enableMask &&& 0x7C != 0)) ∧
      (¬entersWrite → UnchangedBut [.sheila, .output] s t) ∧
      UnchangedBut [.sheila, .output, .dataShiftHasData, .intStatus, .irqPending] s t

/-- R431, R432, R437, R438: the writes that store: offsets 1, 2, 3, 6 only store, offsets 8 to 15 also emit 16 `set_color`
calls. -/
def Obligations.StoringRegisterWrites : Prop :=
  ∀ (a : Word) (v : Byte) (s : State), regionOf a = .peripheral →
    let t := machineWrite a v s
    (ulaOffset a ∈ [1, 2, 3, 6] → t.sheila = s.sheila.set (ulaOffset a) v ∧ UnchangedBut [.sheila] s t) ∧
    (8 ≤ (ulaOffset a).val → t.sheila = s.sheila.set (ulaOffset a) v ∧ t.output = s.output ++ colourCalls t ∧
      UnchangedBut [.sheila, .output] s t)

/-! ## Timer, cassette, driver -/

/-- R451, R454, R455, R460: the end of a scanline: the state `u` that the cassette's tick finds, then that tick, which only counts
in a line where the cassette does not act (CassetteActions says what it does in every line); and the step at such a point of a
running frame, R450. The event of a complete frame is the model's choice, log 10. -/
def Obligations.EndOfScanlineResult : Prop :=
  ∀ s : State, 128 ≤ s.cycleTime →
    let line := (s.scanline + 1) % 312
    let start := ((s.sheila[3].toNat % 64) * 512 + (s.sheila[2].toNat / 32) * 64)
    let e := endOfScanline s
    (∃ u, e = cassetteTick u ∧ u.cycleTime = s.cycleTime - 128 ∧ u.scanline = line ∧
      u.intStatus = s.intStatus ||| (if line = 100 then 0x08 else 0) ||| (if line = 256 then 0x04 else 0) ∧
      u.irqPending = (if line = 100 ∨ line = 256 then (u.intStatus &&& s.enableMask &&& 0x7C != 0) else s.irqPending) ∧
      u.output = s.output ++ (if line = 0 then [.videoSetStartAddress (BitVec.ofNat 16 start)] else []) ++
        (if line < 256 then [.videoDrawScanline line] else []) ∧
      UnchangedBut [.cycleTime, .scanline, .intStatus, .irqPending, .output] s u ∧
      (s.cassetteCounter + 1 < 130 ∨ s.sheila[7].getLsbD 6 = false →
        e.cassetteCounter = (if s.cassetteCounter + 1 < 130 then s.cassetteCounter + 1 else 0) ∧
        UnchangedBut [.cassetteCounter] u e)) ∧
    (s.driver = .runningFrame → s.bpHit = false → ∃ t, step s = .next t ∧
      t.driver = (if line = 0 then .idle else .runningFrame) ∧
      t.output = e.output ++ (if line = 0 then [.frameReturned .frameComplete] else []) ∧
      UnchangedBut [.driver, .output] e t)

/-- R460 to R462: the cassette's tick: it counts scanlines, and at the end of its cadence, with the motor on, it acts as the comms
mode says. The list of the Tape's answers, and that a tape whose list is used up is at its end, are the model's choice, log 9;
each call of the Tape is an output event (R17, log 10). -/
def Obligations.CassetteActions : Prop :=
  ∀ s : State,
    let mode := s.sheila[7].toNat / 2 % 4
    let t := cassetteTick s
    (s.cassetteCounter + 1 < 130 →
      t.cassetteCounter = s.cassetteCounter + 1 ∧ UnchangedBut [.cassetteCounter] s t) ∧
    (130 ≤ s.cassetteCounter + 1 → t.cassetteCounter = 0) ∧
    (130 ≤ s.cassetteCounter + 1 → s.sheila[7].getLsbD 6 = false → UnchangedBut [.cassetteCounter] s t) ∧
    (130 ≤ s.cassetteCounter + 1 → s.sheila[7].getLsbD 6 = true →
      (mode = 0 → ∀ b rest, s.tape = .byte b :: rest → t.tape = rest ∧ t.sheila = s.sheila.set 4 b ∧
        t.intStatus = s.intStatus ||| 0x10 ∧ t.irqPending = (t.intStatus &&& s.enableMask &&& 0x7C != 0) ∧
        t.output = s.output ++ [.tapeIsAtEnd, .tapeNextSymbol] ∧
        UnchangedBut [.cassetteCounter, .tape, .sheila, .intStatus, .irqPending, .output] s t) ∧
      (mode = 0 → ∀ rest, s.tape = .highTone :: rest → t.tape = rest ∧
        t.intStatus = s.intStatus ||| 0x40 ∧ t.irqPending = (t.intStatus &&& s.enableMask &&& 0x7C != 0) ∧
        t.output = s.output ++ [.tapeIsAtEnd, .tapeNextSymbol] ∧
        UnchangedBut [.cassetteCounter, .tape, .intStatus, .irqPending, .output] s t) ∧
      (mode = 0 → ∀ rest, s.tape = .silence :: rest → t.tape = rest ∧
        t.output = s.output ++ [.tapeIsAtEnd, .tapeNextSymbol] ∧ UnchangedBut [.cassetteCounter, .tape, .output] s t) ∧
      (mode = 0 → ∀ rest, s.tape = .atEnd :: rest → t.tape = rest ∧
        t.output = s.output ++ [.tapeIsAtEnd] ∧ UnchangedBut [.cassetteCounter, .tape, .output] s t) ∧
      (mode = 0 → s.tape = [] →
        t.output = s.output ++ [.tapeIsAtEnd] ∧ UnchangedBut [.cassetteCounter, .output] s t) ∧
      (mode = 2 → s.dataShiftHasData = true → t.dataShiftHasData = false ∧ t.intStatus = s.intStatus ||| 0x20 ∧
        t.output = s.output ++ [.tapeStoreByte s.sheila[4]] ∧
        t.irqPending = (t.intStatus &&& s.enableMask &&& 0x7C != 0) ∧
        UnchangedBut [.cassetteCounter, .dataShiftHasData, .intStatus, .irqPending, .output] s t) ∧
      (mode = 2 → s.dataShiftHasData = false → t.output = s.output ++ [.tapeStoreHighTone] ∧
        UnchangedBut [.cassetteCounter, .output] s t) ∧
      (mode = 1 ∨ mode = 3 → UnchangedBut [.cassetteCounter] s t))

/-- R140, R142, R143, R148, R522: a burst ends; it ends with a hit or with the target reached, no more than 6 cycles past it, and
a call with the hit already set, or the target reached, changes nothing. -/
def Obligations.BurstEnds : Prop :=
  ∀ (target : Nat) (s : State), ∃ t, fetchExecute target s = .next t ∧
    (t.bpHit = true ∨ target ≤ t.cycleTime) ∧ s.cycleTime ≤ t.cycleTime ∧
    (s.cycleTime < target → t.cycleTime ≤ target + 6) ∧
    (s.bpHit = true ∨ target ≤ s.cycleTime → t = s)

/-- R450, R453: stepping from a running frame reaches exactly the state that `RunFrame`, as one function, returns, handed back to
the host; the small steps are the model's choice, log 7. -/
def Obligations.StepsRunTheFrame : Prop :=
  ∀ s : State, s.driver = .runningFrame → ∃ n r t,
    runFrame s = .next (r, t) ∧ Host.Core.run Sys2Proof.core n s = .next (frameReturn r t)

/-- R481: the host's step runs one iteration with the breakpoint disabled, restores the breakpoint's kind, then ends a scanline
(EndOfScanlineResult) for each 128 cycles in `cycle_time`. The list of host calls is the model's choice, log 8. -/
def Obligations.HostStepResult : Prop :=
  ∀ (s : State) (rest : List HostCall), s.driver = .idle → s.calls = .step :: rest →
    ∃ t u, iteration { s with calls := rest, bpKind := .none } = .next u ∧ step s = .next t ∧
      t = Nat.repeat endOfScanline (u.cycleTime / 128) { u with bpKind := s.bpKind } ∧
      t.cycleTime = u.cycleTime % 128 ∧ t.scanline = (if 128 ≤ u.cycleTime then
        (u.scanline + u.cycleTime / 128) % 312 else u.scanline) ∧
      (u.cycleTime < 128 → UnchangedBut [.bpKind] u t) ∧
      UnchangedBut [.bpKind, .cycleTime, .scanline, .intStatus, .irqPending, .cassetteCounter, .output, .tape, .sheila,
        .dataShiftHasData] u t ∧
      t.bpKind = s.bpKind ∧ t.bpAddr = s.bpAddr ∧ t.calls = rest ∧ t.driver = .idle

/-- R480, R483, R485, R486: the host's small operations, each taken in Idle as the next host call: setting the breakpoint, a key
going down or up, the NMI trigger, and the debug read, which is the machine's read with its side effects. The list of
host calls is the model's choice, log 8. -/
def Obligations.HostOperations : Prop :=
  ∀ (s : State) (c : HostCall) (rest : List HostCall), s.driver = .idle → s.calls = c :: rest →
    (∀ kind addr, c = .setBreakpoint kind addr → ∃ t, step s = .next t ∧ t.bpKind = kind ∧ t.bpAddr = addr ∧
      t.bpHit = false ∧ t.calls = rest ∧ UnchangedBut [.bpKind, .bpAddr, .bpHit, .calls] s t) ∧
    (∀ (row : Fin 14) (col : Fin 4) (down : Bool), c = (if down then .press row col else .release row col) → ∃ t, step s = .next t ∧
      t.keyboard[row].getLsbD col.val = down ∧
      (∀ (r : Fin 14) (k : Nat), ¬(r = row ∧ k = col.val) → t.keyboard[r].getLsbD k = s.keyboard[r].getLsbD k) ∧
      t.calls = rest ∧ UnchangedBut [.keyboard, .calls] s t) ∧
    (c = .triggerNmi → ∃ t, step s = .next t ∧ t.nmiPending = true ∧ t.calls = rest ∧
      UnchangedBut [.nmiPending, .calls] s t) ∧
    (∀ addr, c = .debugRead addr → ∃ t, step s = .next t ∧
      t.output = s.output ++ [.debugReadReturned addr (peek s addr)] ∧ t.calls = rest ∧
      UnchangedBut [.calls, .output] (readEffect addr s) t)

/-- R474, R78, R484: the loads and clears of the banks and of the OS ROM. A load succeeds with exactly 16384 bytes and the image
then reads back; any other length leaves the target absent; a clear leaves it absent; bank 11 acts on bank 10; only the target
changes. The list of host calls (log 8), the events that report (log 10) and that a clear reports success (log 20) are the
model's. -/
def Obligations.RomLoad : Prop :=
  ∀ (s : State) (c : HostCall) (rest : List HostCall), s.driver = .idle → s.calls = c :: rest →
    (∀ (bank : BitVec 4) (src : List Byte), c = .loadBank bank src →
      let k : Fin 16 := if bank = 11 then 10 else bank.toFin
      ∃ t, step s = .next t ∧ t.output = s.output ++ [.romLoadReturned (decide (src.length = 16384))] ∧
        (src.length = 16384 → t.pagedRoms[k].isSome = true ∧
          ∀ off, off < 16384 → romByte t.pagedRoms[k] off = src.getD off 0) ∧
        (src.length ≠ 16384 → t.pagedRoms[k] = none) ∧ (∀ j : Fin 16, j ≠ k → t.pagedRoms[j] = s.pagedRoms[j]) ∧
        t.calls = rest ∧ UnchangedBut [.pagedRoms, .output, .calls] s t) ∧
    (∀ bank : BitVec 4, c = .clearBank bank →
      let k : Fin 16 := if bank = 11 then 10 else bank.toFin
      ∃ t, step s = .next t ∧ t.pagedRoms[k] = none ∧ (∀ j : Fin 16, j ≠ k → t.pagedRoms[j] = s.pagedRoms[j]) ∧
        t.output = s.output ++ [.romClearReturned true] ∧ t.calls = rest ∧
        UnchangedBut [.pagedRoms, .output, .calls] s t) ∧
    (∀ src : List Byte, c = .loadOsRom src →
      ∃ t, step s = .next t ∧ t.output = s.output ++ [.romLoadReturned (decide (src.length = 16384))] ∧
        (src.length = 16384 → t.osRom.isSome = true ∧
          ∀ off, off < 16384 → romByte t.osRom off = src.getD off 0) ∧
        (src.length ≠ 16384 → t.osRom = none) ∧ t.calls = rest ∧ UnchangedBut [.osRom, .output, .calls] s t) ∧
    (c = .clearOsRom →
      ∃ t, step s = .next t ∧ t.osRom = none ∧ t.output = s.output ++ [.romClearReturned true] ∧ t.calls = rest ∧
        UnchangedBut [.osRom, .output, .calls] s t)

/-! ## Frames over every instruction -/

/-- 30_encoding.md R114, the column "flags written": no instruction changes a flag outside its row's list. -/
def Obligations.FlagsFrame : Prop :=
  ∀ (i : Instr) (s t : State), exec i s = .next t → FlagsUnchangedBut i.mnemonic.flagsWritten s.p t.p

/-- R30, R31 and each instruction's rule: an instruction changes no register but those it writes, and of the rest only P, PC, the
time, the breakpoint hit, RAM and the ULA; with no data access in the peripheral window the ULA is unchanged too. -/
def Obligations.StateFrame : Prop :=
  ∀ (i : Instr) (s t : State), exec i s = .next t →
    UnchangedBut (i.registersWritten ++ [.p, .pc, .cycleTime, .bpHit, .ram, .page, .sheila, .intStatus, .enableMask,
      .irqPending, .dataShiftHasData, .output]) s t ∧
    ((∀ a, a ∈ i.dataAddresses s → OutsideUla a) →
      UnchangedBut (i.registersWritten ++ [.p, .pc, .cycleTime, .bpHit, .ram] ++
        (if i.mnemonic = .undefined then [.output] else [])) s t)

/-- R72, R76 and each instruction's rule: every byte of RAM outside the bytes the instruction stores reads as before; with no data
access in the peripheral window every byte of the address space does. -/
def Obligations.MemoryFrame : Prop :=
  ∀ (i : Instr) (s t : State), exec i s = .next t →
    (∀ a : Word, a.toNat < 0x8000 → a ∉ i.storedAddresses s → peek t a = peek s a) ∧
    ((∀ a, a ∈ i.dataAddresses s → OutsideUla a) → ∀ a, a ∉ i.storedAddresses s → peek t a = peek s a)

/-- R146, R148, R522: an instruction costs 2 to 7 cycles. -/
def Obligations.InstructionCost : Prop :=
  ∀ (i : Instr) (s t : State), exec i s = .next t → s.cycleTime + 2 ≤ t.cycleTime ∧ t.cycleTime ≤ s.cycleTime + 7
end

