-- ==== Sys2Proof/Laws/Flags.lean ====
section
/-! SUPPORT. What the flag operations do to each bit of P. -/

namespace Sys2Proof.Machine

/-- `putBit` writes the one bit. -/
theorem putBit_getLsbD (v : Byte) (k : Nat) (b : Bool) (j : Nat) (hk : k < 8) :
    (putBit v k b).getLsbD j = if j = k then b else v.getLsbD j := by
  unfold putBit
  by_cases h : j = k
  · subst h; cases b <;> simp [hk]
  · have h' : k ≠ j := fun e => h e.symm
    cases b <;> simp [BitVec.getLsbD_twoPow, h, h']
    intro hv; exact BitVec.lt_of_getLsbD hv

theorem flagBit_lt (f : Flag) : flagBit f < 8 := by cases f <;> decide

theorem flagBit_injective {f g : Flag} (h : flagBit f = flagBit g) : f = g := by
  cases f <;> cases g <;> first | rfl | (simp [flagBit] at h)

/-- Writing a flag writes that flag only. -/
theorem getFlag_putFlag (p : Byte) (f g : Flag) (b : Bool) :
    getFlag (putFlag p f b) g = if g = f then b else getFlag p g := by
  unfold getFlag putFlag
  rw [putBit_getLsbD _ _ _ _ (flagBit_lt f)]
  by_cases h : g = f
  · simp [h]
  · have : flagBit g ≠ flagBit f := fun e => h (flagBit_injective e)
    simp [h, this]

@[simp] theorem getFlag_putFlag_self (p : Byte) (f : Flag) (b : Bool) : getFlag (putFlag p f b) f = b := by
  simp [getFlag_putFlag]

/-- SetNZ: N is bit 7, Z is equality with zero, every other flag stays. -/
theorem getFlag_setNZ (v p : Byte) (g : Flag) :
    getFlag (setNZ v p) g = if g = .z then v == 0 else if g = .n then v.msb else getFlag p g := by
  simp [setNZ, getFlag_putFlag]

/-- The flags of an ALU result: N, V, Z, C are its, every other flag stays. -/
theorem getFlag_aluFlags (r : AluResult) (p : Byte) (g : Flag) :
    getFlag (r.flags p) g =
      if g = .c then r.c else if g = .z then r.z else if g = .v then r.v else if g = .n then r.n else getFlag p g := by
  simp [AluResult.flags, getFlag_putFlag]

/-- A compare's flags at the default COMPARE_WRITES_V. -/
theorem getFlag_compareFlags (w : Bool) (r m p : Byte) (g : Flag) :
    getFlag (compareFlags w r m p) g =
      let diff : Int := (r.toNat : Int) - m.toNat
      let res := BitVec.ofInt 8 diff
      if g = .v then (if w then subOverflow r m res else getFlag p .v)
      else if g = .z then res == 0 else if g = .n then res.msb else if g = .c then decide (diff ≥ 0) else getFlag p g := by
  cases w <;> cases g <;> simp [compareFlags, getFlag_putFlag, getFlag_setNZ]

/-- BIT's flags. -/
theorem getFlag_bitFlags (a m p : Byte) (g : Flag) :
    getFlag (bitFlags a m p) g =
      if g = .z then a &&& m == 0 else if g = .v then m.getLsbD 6 else if g = .n then m.getLsbD 7 else getFlag p g := by
  simp [bitFlags, getFlag_putFlag]

/-- P is its eight flags. -/
theorem flags_ext {p q : Byte} (h : ∀ f, getFlag p f = getFlag q f) : p = q := by
  apply BitVec.eq_of_getLsbD_eq
  intro i hi
  have : i = 0 ∨ i = 1 ∨ i = 2 ∨ i = 3 ∨ i = 4 ∨ i = 5 ∨ i = 6 ∨ i = 7 := by omega
  rcases this with h' | h' | h' | h' | h' | h' | h' | h' <;> subst h'
  · exact h .c
  · exact h .z
  · exact h .i
  · exact h .d
  · exact h .b
  · exact h .u
  · exact h .v
  · exact h .n

/-- PHP's byte is P with B and U set (47_stack.md R323). -/
theorem php_byte (p : Byte) : p ||| 0x30 = putFlag (putFlag p .b true) .u true := by
  simp only [putFlag, putBit, flagBit, if_true, BitVec.or_assoc]
  congr 1

end Sys2Proof.Machine
end

