-- ==== Sys2Proof/Laws/State.lean ====
section
/-! SUPPORT. What each named update of State does to each field: one lemma for each pair, true by rfl. -/

namespace Sys2Proof.Machine

@[simp] theorem State.setA_a (s : State) (v : Byte) : (s.setA v).a = v := rfl
@[simp] theorem State.setA_x (s : State) (v : Byte) : (s.setA v).x = s.x := rfl
@[simp] theorem State.setA_y (s : State) (v : Byte) : (s.setA v).y = s.y := rfl
@[simp] theorem State.setA_sp (s : State) (v : Byte) : (s.setA v).sp = s.sp := rfl
@[simp] theorem State.setA_p (s : State) (v : Byte) : (s.setA v).p = s.p := rfl
@[simp] theorem State.setA_pc (s : State) (v : Byte) : (s.setA v).pc = s.pc := rfl
@[simp] theorem State.setA_cycleTime (s : State) (v : Byte) : (s.setA v).cycleTime = s.cycleTime := rfl
@[simp] theorem State.setA_irqPending (s : State) (v : Byte) : (s.setA v).irqPending = s.irqPending := rfl
@[simp] theorem State.setA_nmiPending (s : State) (v : Byte) : (s.setA v).nmiPending = s.nmiPending := rfl
@[simp] theorem State.setA_bpKind (s : State) (v : Byte) : (s.setA v).bpKind = s.bpKind := rfl
@[simp] theorem State.setA_bpAddr (s : State) (v : Byte) : (s.setA v).bpAddr = s.bpAddr := rfl
@[simp] theorem State.setA_bpHit (s : State) (v : Byte) : (s.setA v).bpHit = s.bpHit := rfl
@[simp] theorem State.setA_currentInstruction (s : State) (v : Byte) : (s.setA v).currentInstruction = s.currentInstruction := rfl
@[simp] theorem State.setA_ram (s : State) (v : Byte) : (s.setA v).ram = s.ram := rfl
@[simp] theorem State.setA_osRom (s : State) (v : Byte) : (s.setA v).osRom = s.osRom := rfl
@[simp] theorem State.setA_pagedRoms (s : State) (v : Byte) : (s.setA v).pagedRoms = s.pagedRoms := rfl
@[simp] theorem State.setA_page (s : State) (v : Byte) : (s.setA v).page = s.page := rfl
@[simp] theorem State.setA_sheila (s : State) (v : Byte) : (s.setA v).sheila = s.sheila := rfl
@[simp] theorem State.setA_intStatus (s : State) (v : Byte) : (s.setA v).intStatus = s.intStatus := rfl
@[simp] theorem State.setA_enableMask (s : State) (v : Byte) : (s.setA v).enableMask = s.enableMask := rfl
@[simp] theorem State.setA_scanline (s : State) (v : Byte) : (s.setA v).scanline = s.scanline := rfl
@[simp] theorem State.setA_cassetteCounter (s : State) (v : Byte) : (s.setA v).cassetteCounter = s.cassetteCounter := rfl
@[simp] theorem State.setA_dataShiftHasData (s : State) (v : Byte) : (s.setA v).dataShiftHasData = s.dataShiftHasData := rfl
@[simp] theorem State.setA_keyboard (s : State) (v : Byte) : (s.setA v).keyboard = s.keyboard := rfl
@[simp] theorem State.setA_driver (s : State) (v : Byte) : (s.setA v).driver = s.driver := rfl
@[simp] theorem State.setA_output (s : State) (v : Byte) : (s.setA v).output = s.output := rfl
@[simp] theorem State.setA_tape (s : State) (v : Byte) : (s.setA v).tape = s.tape := rfl
@[simp] theorem State.setA_calls (s : State) (v : Byte) : (s.setA v).calls = s.calls := rfl

@[simp] theorem State.setX_a (s : State) (v : Byte) : (s.setX v).a = s.a := rfl
@[simp] theorem State.setX_x (s : State) (v : Byte) : (s.setX v).x = v := rfl
@[simp] theorem State.setX_y (s : State) (v : Byte) : (s.setX v).y = s.y := rfl
@[simp] theorem State.setX_sp (s : State) (v : Byte) : (s.setX v).sp = s.sp := rfl
@[simp] theorem State.setX_p (s : State) (v : Byte) : (s.setX v).p = s.p := rfl
@[simp] theorem State.setX_pc (s : State) (v : Byte) : (s.setX v).pc = s.pc := rfl
@[simp] theorem State.setX_cycleTime (s : State) (v : Byte) : (s.setX v).cycleTime = s.cycleTime := rfl
@[simp] theorem State.setX_irqPending (s : State) (v : Byte) : (s.setX v).irqPending = s.irqPending := rfl
@[simp] theorem State.setX_nmiPending (s : State) (v : Byte) : (s.setX v).nmiPending = s.nmiPending := rfl
@[simp] theorem State.setX_bpKind (s : State) (v : Byte) : (s.setX v).bpKind = s.bpKind := rfl
@[simp] theorem State.setX_bpAddr (s : State) (v : Byte) : (s.setX v).bpAddr = s.bpAddr := rfl
@[simp] theorem State.setX_bpHit (s : State) (v : Byte) : (s.setX v).bpHit = s.bpHit := rfl
@[simp] theorem State.setX_currentInstruction (s : State) (v : Byte) : (s.setX v).currentInstruction = s.currentInstruction := rfl
@[simp] theorem State.setX_ram (s : State) (v : Byte) : (s.setX v).ram = s.ram := rfl
@[simp] theorem State.setX_osRom (s : State) (v : Byte) : (s.setX v).osRom = s.osRom := rfl
@[simp] theorem State.setX_pagedRoms (s : State) (v : Byte) : (s.setX v).pagedRoms = s.pagedRoms := rfl
@[simp] theorem State.setX_page (s : State) (v : Byte) : (s.setX v).page = s.page := rfl
@[simp] theorem State.setX_sheila (s : State) (v : Byte) : (s.setX v).sheila = s.sheila := rfl
@[simp] theorem State.setX_intStatus (s : State) (v : Byte) : (s.setX v).intStatus = s.intStatus := rfl
@[simp] theorem State.setX_enableMask (s : State) (v : Byte) : (s.setX v).enableMask = s.enableMask := rfl
@[simp] theorem State.setX_scanline (s : State) (v : Byte) : (s.setX v).scanline = s.scanline := rfl
@[simp] theorem State.setX_cassetteCounter (s : State) (v : Byte) : (s.setX v).cassetteCounter = s.cassetteCounter := rfl
@[simp] theorem State.setX_dataShiftHasData (s : State) (v : Byte) : (s.setX v).dataShiftHasData = s.dataShiftHasData := rfl
@[simp] theorem State.setX_keyboard (s : State) (v : Byte) : (s.setX v).keyboard = s.keyboard := rfl
@[simp] theorem State.setX_driver (s : State) (v : Byte) : (s.setX v).driver = s.driver := rfl
@[simp] theorem State.setX_output (s : State) (v : Byte) : (s.setX v).output = s.output := rfl
@[simp] theorem State.setX_tape (s : State) (v : Byte) : (s.setX v).tape = s.tape := rfl
@[simp] theorem State.setX_calls (s : State) (v : Byte) : (s.setX v).calls = s.calls := rfl

@[simp] theorem State.setY_a (s : State) (v : Byte) : (s.setY v).a = s.a := rfl
@[simp] theorem State.setY_x (s : State) (v : Byte) : (s.setY v).x = s.x := rfl
@[simp] theorem State.setY_y (s : State) (v : Byte) : (s.setY v).y = v := rfl
@[simp] theorem State.setY_sp (s : State) (v : Byte) : (s.setY v).sp = s.sp := rfl
@[simp] theorem State.setY_p (s : State) (v : Byte) : (s.setY v).p = s.p := rfl
@[simp] theorem State.setY_pc (s : State) (v : Byte) : (s.setY v).pc = s.pc := rfl
@[simp] theorem State.setY_cycleTime (s : State) (v : Byte) : (s.setY v).cycleTime = s.cycleTime := rfl
@[simp] theorem State.setY_irqPending (s : State) (v : Byte) : (s.setY v).irqPending = s.irqPending := rfl
@[simp] theorem State.setY_nmiPending (s : State) (v : Byte) : (s.setY v).nmiPending = s.nmiPending := rfl
@[simp] theorem State.setY_bpKind (s : State) (v : Byte) : (s.setY v).bpKind = s.bpKind := rfl
@[simp] theorem State.setY_bpAddr (s : State) (v : Byte) : (s.setY v).bpAddr = s.bpAddr := rfl
@[simp] theorem State.setY_bpHit (s : State) (v : Byte) : (s.setY v).bpHit = s.bpHit := rfl
@[simp] theorem State.setY_currentInstruction (s : State) (v : Byte) : (s.setY v).currentInstruction = s.currentInstruction := rfl
@[simp] theorem State.setY_ram (s : State) (v : Byte) : (s.setY v).ram = s.ram := rfl
@[simp] theorem State.setY_osRom (s : State) (v : Byte) : (s.setY v).osRom = s.osRom := rfl
@[simp] theorem State.setY_pagedRoms (s : State) (v : Byte) : (s.setY v).pagedRoms = s.pagedRoms := rfl
@[simp] theorem State.setY_page (s : State) (v : Byte) : (s.setY v).page = s.page := rfl
@[simp] theorem State.setY_sheila (s : State) (v : Byte) : (s.setY v).sheila = s.sheila := rfl
@[simp] theorem State.setY_intStatus (s : State) (v : Byte) : (s.setY v).intStatus = s.intStatus := rfl
@[simp] theorem State.setY_enableMask (s : State) (v : Byte) : (s.setY v).enableMask = s.enableMask := rfl
@[simp] theorem State.setY_scanline (s : State) (v : Byte) : (s.setY v).scanline = s.scanline := rfl
@[simp] theorem State.setY_cassetteCounter (s : State) (v : Byte) : (s.setY v).cassetteCounter = s.cassetteCounter := rfl
@[simp] theorem State.setY_dataShiftHasData (s : State) (v : Byte) : (s.setY v).dataShiftHasData = s.dataShiftHasData := rfl
@[simp] theorem State.setY_keyboard (s : State) (v : Byte) : (s.setY v).keyboard = s.keyboard := rfl
@[simp] theorem State.setY_driver (s : State) (v : Byte) : (s.setY v).driver = s.driver := rfl
@[simp] theorem State.setY_output (s : State) (v : Byte) : (s.setY v).output = s.output := rfl
@[simp] theorem State.setY_tape (s : State) (v : Byte) : (s.setY v).tape = s.tape := rfl
@[simp] theorem State.setY_calls (s : State) (v : Byte) : (s.setY v).calls = s.calls := rfl

@[simp] theorem State.setSp_a (s : State) (v : Byte) : (s.setSp v).a = s.a := rfl
@[simp] theorem State.setSp_x (s : State) (v : Byte) : (s.setSp v).x = s.x := rfl
@[simp] theorem State.setSp_y (s : State) (v : Byte) : (s.setSp v).y = s.y := rfl
@[simp] theorem State.setSp_sp (s : State) (v : Byte) : (s.setSp v).sp = v := rfl
@[simp] theorem State.setSp_p (s : State) (v : Byte) : (s.setSp v).p = s.p := rfl
@[simp] theorem State.setSp_pc (s : State) (v : Byte) : (s.setSp v).pc = s.pc := rfl
@[simp] theorem State.setSp_cycleTime (s : State) (v : Byte) : (s.setSp v).cycleTime = s.cycleTime := rfl
@[simp] theorem State.setSp_irqPending (s : State) (v : Byte) : (s.setSp v).irqPending = s.irqPending := rfl
@[simp] theorem State.setSp_nmiPending (s : State) (v : Byte) : (s.setSp v).nmiPending = s.nmiPending := rfl
@[simp] theorem State.setSp_bpKind (s : State) (v : Byte) : (s.setSp v).bpKind = s.bpKind := rfl
@[simp] theorem State.setSp_bpAddr (s : State) (v : Byte) : (s.setSp v).bpAddr = s.bpAddr := rfl
@[simp] theorem State.setSp_bpHit (s : State) (v : Byte) : (s.setSp v).bpHit = s.bpHit := rfl
@[simp] theorem State.setSp_currentInstruction (s : State) (v : Byte) : (s.setSp v).currentInstruction = s.currentInstruction := rfl
@[simp] theorem State.setSp_ram (s : State) (v : Byte) : (s.setSp v).ram = s.ram := rfl
@[simp] theorem State.setSp_osRom (s : State) (v : Byte) : (s.setSp v).osRom = s.osRom := rfl
@[simp] theorem State.setSp_pagedRoms (s : State) (v : Byte) : (s.setSp v).pagedRoms = s.pagedRoms := rfl
@[simp] theorem State.setSp_page (s : State) (v : Byte) : (s.setSp v).page = s.page := rfl
@[simp] theorem State.setSp_sheila (s : State) (v : Byte) : (s.setSp v).sheila = s.sheila := rfl
@[simp] theorem State.setSp_intStatus (s : State) (v : Byte) : (s.setSp v).intStatus = s.intStatus := rfl
@[simp] theorem State.setSp_enableMask (s : State) (v : Byte) : (s.setSp v).enableMask = s.enableMask := rfl
@[simp] theorem State.setSp_scanline (s : State) (v : Byte) : (s.setSp v).scanline = s.scanline := rfl
@[simp] theorem State.setSp_cassetteCounter (s : State) (v : Byte) : (s.setSp v).cassetteCounter = s.cassetteCounter := rfl
@[simp] theorem State.setSp_dataShiftHasData (s : State) (v : Byte) : (s.setSp v).dataShiftHasData = s.dataShiftHasData := rfl
@[simp] theorem State.setSp_keyboard (s : State) (v : Byte) : (s.setSp v).keyboard = s.keyboard := rfl
@[simp] theorem State.setSp_driver (s : State) (v : Byte) : (s.setSp v).driver = s.driver := rfl
@[simp] theorem State.setSp_output (s : State) (v : Byte) : (s.setSp v).output = s.output := rfl
@[simp] theorem State.setSp_tape (s : State) (v : Byte) : (s.setSp v).tape = s.tape := rfl
@[simp] theorem State.setSp_calls (s : State) (v : Byte) : (s.setSp v).calls = s.calls := rfl

@[simp] theorem State.setP_a (s : State) (v : Byte) : (s.setP v).a = s.a := rfl
@[simp] theorem State.setP_x (s : State) (v : Byte) : (s.setP v).x = s.x := rfl
@[simp] theorem State.setP_y (s : State) (v : Byte) : (s.setP v).y = s.y := rfl
@[simp] theorem State.setP_sp (s : State) (v : Byte) : (s.setP v).sp = s.sp := rfl
@[simp] theorem State.setP_p (s : State) (v : Byte) : (s.setP v).p = v := rfl
@[simp] theorem State.setP_pc (s : State) (v : Byte) : (s.setP v).pc = s.pc := rfl
@[simp] theorem State.setP_cycleTime (s : State) (v : Byte) : (s.setP v).cycleTime = s.cycleTime := rfl
@[simp] theorem State.setP_irqPending (s : State) (v : Byte) : (s.setP v).irqPending = s.irqPending := rfl
@[simp] theorem State.setP_nmiPending (s : State) (v : Byte) : (s.setP v).nmiPending = s.nmiPending := rfl
@[simp] theorem State.setP_bpKind (s : State) (v : Byte) : (s.setP v).bpKind = s.bpKind := rfl
@[simp] theorem State.setP_bpAddr (s : State) (v : Byte) : (s.setP v).bpAddr = s.bpAddr := rfl
@[simp] theorem State.setP_bpHit (s : State) (v : Byte) : (s.setP v).bpHit = s.bpHit := rfl
@[simp] theorem State.setP_currentInstruction (s : State) (v : Byte) : (s.setP v).currentInstruction = s.currentInstruction := rfl
@[simp] theorem State.setP_ram (s : State) (v : Byte) : (s.setP v).ram = s.ram := rfl
@[simp] theorem State.setP_osRom (s : State) (v : Byte) : (s.setP v).osRom = s.osRom := rfl
@[simp] theorem State.setP_pagedRoms (s : State) (v : Byte) : (s.setP v).pagedRoms = s.pagedRoms := rfl
@[simp] theorem State.setP_page (s : State) (v : Byte) : (s.setP v).page = s.page := rfl
@[simp] theorem State.setP_sheila (s : State) (v : Byte) : (s.setP v).sheila = s.sheila := rfl
@[simp] theorem State.setP_intStatus (s : State) (v : Byte) : (s.setP v).intStatus = s.intStatus := rfl
@[simp] theorem State.setP_enableMask (s : State) (v : Byte) : (s.setP v).enableMask = s.enableMask := rfl
@[simp] theorem State.setP_scanline (s : State) (v : Byte) : (s.setP v).scanline = s.scanline := rfl
@[simp] theorem State.setP_cassetteCounter (s : State) (v : Byte) : (s.setP v).cassetteCounter = s.cassetteCounter := rfl
@[simp] theorem State.setP_dataShiftHasData (s : State) (v : Byte) : (s.setP v).dataShiftHasData = s.dataShiftHasData := rfl
@[simp] theorem State.setP_keyboard (s : State) (v : Byte) : (s.setP v).keyboard = s.keyboard := rfl
@[simp] theorem State.setP_driver (s : State) (v : Byte) : (s.setP v).driver = s.driver := rfl
@[simp] theorem State.setP_output (s : State) (v : Byte) : (s.setP v).output = s.output := rfl
@[simp] theorem State.setP_tape (s : State) (v : Byte) : (s.setP v).tape = s.tape := rfl
@[simp] theorem State.setP_calls (s : State) (v : Byte) : (s.setP v).calls = s.calls := rfl

@[simp] theorem State.setPc_a (s : State) (v : Word) : (s.setPc v).a = s.a := rfl
@[simp] theorem State.setPc_x (s : State) (v : Word) : (s.setPc v).x = s.x := rfl
@[simp] theorem State.setPc_y (s : State) (v : Word) : (s.setPc v).y = s.y := rfl
@[simp] theorem State.setPc_sp (s : State) (v : Word) : (s.setPc v).sp = s.sp := rfl
@[simp] theorem State.setPc_p (s : State) (v : Word) : (s.setPc v).p = s.p := rfl
@[simp] theorem State.setPc_pc (s : State) (v : Word) : (s.setPc v).pc = v := rfl
@[simp] theorem State.setPc_cycleTime (s : State) (v : Word) : (s.setPc v).cycleTime = s.cycleTime := rfl
@[simp] theorem State.setPc_irqPending (s : State) (v : Word) : (s.setPc v).irqPending = s.irqPending := rfl
@[simp] theorem State.setPc_nmiPending (s : State) (v : Word) : (s.setPc v).nmiPending = s.nmiPending := rfl
@[simp] theorem State.setPc_bpKind (s : State) (v : Word) : (s.setPc v).bpKind = s.bpKind := rfl
@[simp] theorem State.setPc_bpAddr (s : State) (v : Word) : (s.setPc v).bpAddr = s.bpAddr := rfl
@[simp] theorem State.setPc_bpHit (s : State) (v : Word) : (s.setPc v).bpHit = s.bpHit := rfl
@[simp] theorem State.setPc_currentInstruction (s : State) (v : Word) : (s.setPc v).currentInstruction = s.currentInstruction := rfl
@[simp] theorem State.setPc_ram (s : State) (v : Word) : (s.setPc v).ram = s.ram := rfl
@[simp] theorem State.setPc_osRom (s : State) (v : Word) : (s.setPc v).osRom = s.osRom := rfl
@[simp] theorem State.setPc_pagedRoms (s : State) (v : Word) : (s.setPc v).pagedRoms = s.pagedRoms := rfl
@[simp] theorem State.setPc_page (s : State) (v : Word) : (s.setPc v).page = s.page := rfl
@[simp] theorem State.setPc_sheila (s : State) (v : Word) : (s.setPc v).sheila = s.sheila := rfl
@[simp] theorem State.setPc_intStatus (s : State) (v : Word) : (s.setPc v).intStatus = s.intStatus := rfl
@[simp] theorem State.setPc_enableMask (s : State) (v : Word) : (s.setPc v).enableMask = s.enableMask := rfl
@[simp] theorem State.setPc_scanline (s : State) (v : Word) : (s.setPc v).scanline = s.scanline := rfl
@[simp] theorem State.setPc_cassetteCounter (s : State) (v : Word) : (s.setPc v).cassetteCounter = s.cassetteCounter := rfl
@[simp] theorem State.setPc_dataShiftHasData (s : State) (v : Word) : (s.setPc v).dataShiftHasData = s.dataShiftHasData := rfl
@[simp] theorem State.setPc_keyboard (s : State) (v : Word) : (s.setPc v).keyboard = s.keyboard := rfl
@[simp] theorem State.setPc_driver (s : State) (v : Word) : (s.setPc v).driver = s.driver := rfl
@[simp] theorem State.setPc_output (s : State) (v : Word) : (s.setPc v).output = s.output := rfl
@[simp] theorem State.setPc_tape (s : State) (v : Word) : (s.setPc v).tape = s.tape := rfl
@[simp] theorem State.setPc_calls (s : State) (v : Word) : (s.setPc v).calls = s.calls := rfl

@[simp] theorem State.setCycleTime_a (s : State) (n : Nat) : (s.setCycleTime n).a = s.a := rfl
@[simp] theorem State.setCycleTime_x (s : State) (n : Nat) : (s.setCycleTime n).x = s.x := rfl
@[simp] theorem State.setCycleTime_y (s : State) (n : Nat) : (s.setCycleTime n).y = s.y := rfl
@[simp] theorem State.setCycleTime_sp (s : State) (n : Nat) : (s.setCycleTime n).sp = s.sp := rfl
@[simp] theorem State.setCycleTime_p (s : State) (n : Nat) : (s.setCycleTime n).p = s.p := rfl
@[simp] theorem State.setCycleTime_pc (s : State) (n : Nat) : (s.setCycleTime n).pc = s.pc := rfl
@[simp] theorem State.setCycleTime_cycleTime (s : State) (n : Nat) : (s.setCycleTime n).cycleTime = n := rfl
@[simp] theorem State.setCycleTime_irqPending (s : State) (n : Nat) : (s.setCycleTime n).irqPending = s.irqPending := rfl
@[simp] theorem State.setCycleTime_nmiPending (s : State) (n : Nat) : (s.setCycleTime n).nmiPending = s.nmiPending := rfl
@[simp] theorem State.setCycleTime_bpKind (s : State) (n : Nat) : (s.setCycleTime n).bpKind = s.bpKind := rfl
@[simp] theorem State.setCycleTime_bpAddr (s : State) (n : Nat) : (s.setCycleTime n).bpAddr = s.bpAddr := rfl
@[simp] theorem State.setCycleTime_bpHit (s : State) (n : Nat) : (s.setCycleTime n).bpHit = s.bpHit := rfl
@[simp] theorem State.setCycleTime_currentInstruction (s : State) (n : Nat) : (s.setCycleTime n).currentInstruction = s.currentInstruction := rfl
@[simp] theorem State.setCycleTime_ram (s : State) (n : Nat) : (s.setCycleTime n).ram = s.ram := rfl
@[simp] theorem State.setCycleTime_osRom (s : State) (n : Nat) : (s.setCycleTime n).osRom = s.osRom := rfl
@[simp] theorem State.setCycleTime_pagedRoms (s : State) (n : Nat) : (s.setCycleTime n).pagedRoms = s.pagedRoms := rfl
@[simp] theorem State.setCycleTime_page (s : State) (n : Nat) : (s.setCycleTime n).page = s.page := rfl
@[simp] theorem State.setCycleTime_sheila (s : State) (n : Nat) : (s.setCycleTime n).sheila = s.sheila := rfl
@[simp] theorem State.setCycleTime_intStatus (s : State) (n : Nat) : (s.setCycleTime n).intStatus = s.intStatus := rfl
@[simp] theorem State.setCycleTime_enableMask (s : State) (n : Nat) : (s.setCycleTime n).enableMask = s.enableMask := rfl
@[simp] theorem State.setCycleTime_scanline (s : State) (n : Nat) : (s.setCycleTime n).scanline = s.scanline := rfl
@[simp] theorem State.setCycleTime_cassetteCounter (s : State) (n : Nat) : (s.setCycleTime n).cassetteCounter = s.cassetteCounter := rfl
@[simp] theorem State.setCycleTime_dataShiftHasData (s : State) (n : Nat) : (s.setCycleTime n).dataShiftHasData = s.dataShiftHasData := rfl
@[simp] theorem State.setCycleTime_keyboard (s : State) (n : Nat) : (s.setCycleTime n).keyboard = s.keyboard := rfl
@[simp] theorem State.setCycleTime_driver (s : State) (n : Nat) : (s.setCycleTime n).driver = s.driver := rfl
@[simp] theorem State.setCycleTime_output (s : State) (n : Nat) : (s.setCycleTime n).output = s.output := rfl
@[simp] theorem State.setCycleTime_tape (s : State) (n : Nat) : (s.setCycleTime n).tape = s.tape := rfl
@[simp] theorem State.setCycleTime_calls (s : State) (n : Nat) : (s.setCycleTime n).calls = s.calls := rfl

@[simp] theorem State.setIrq_a (s : State) (b : Bool) : (s.setIrq b).a = s.a := rfl
@[simp] theorem State.setIrq_x (s : State) (b : Bool) : (s.setIrq b).x = s.x := rfl
@[simp] theorem State.setIrq_y (s : State) (b : Bool) : (s.setIrq b).y = s.y := rfl
@[simp] theorem State.setIrq_sp (s : State) (b : Bool) : (s.setIrq b).sp = s.sp := rfl
@[simp] theorem State.setIrq_p (s : State) (b : Bool) : (s.setIrq b).p = s.p := rfl
@[simp] theorem State.setIrq_pc (s : State) (b : Bool) : (s.setIrq b).pc = s.pc := rfl
@[simp] theorem State.setIrq_cycleTime (s : State) (b : Bool) : (s.setIrq b).cycleTime = s.cycleTime := rfl
@[simp] theorem State.setIrq_irqPending (s : State) (b : Bool) : (s.setIrq b).irqPending = b := rfl
@[simp] theorem State.setIrq_nmiPending (s : State) (b : Bool) : (s.setIrq b).nmiPending = s.nmiPending := rfl
@[simp] theorem State.setIrq_bpKind (s : State) (b : Bool) : (s.setIrq b).bpKind = s.bpKind := rfl
@[simp] theorem State.setIrq_bpAddr (s : State) (b : Bool) : (s.setIrq b).bpAddr = s.bpAddr := rfl
@[simp] theorem State.setIrq_bpHit (s : State) (b : Bool) : (s.setIrq b).bpHit = s.bpHit := rfl
@[simp] theorem State.setIrq_currentInstruction (s : State) (b : Bool) : (s.setIrq b).currentInstruction = s.currentInstruction := rfl
@[simp] theorem State.setIrq_ram (s : State) (b : Bool) : (s.setIrq b).ram = s.ram := rfl
@[simp] theorem State.setIrq_osRom (s : State) (b : Bool) : (s.setIrq b).osRom = s.osRom := rfl
@[simp] theorem State.setIrq_pagedRoms (s : State) (b : Bool) : (s.setIrq b).pagedRoms = s.pagedRoms := rfl
@[simp] theorem State.setIrq_page (s : State) (b : Bool) : (s.setIrq b).page = s.page := rfl
@[simp] theorem State.setIrq_sheila (s : State) (b : Bool) : (s.setIrq b).sheila = s.sheila := rfl
@[simp] theorem State.setIrq_intStatus (s : State) (b : Bool) : (s.setIrq b).intStatus = s.intStatus := rfl
@[simp] theorem State.setIrq_enableMask (s : State) (b : Bool) : (s.setIrq b).enableMask = s.enableMask := rfl
@[simp] theorem State.setIrq_scanline (s : State) (b : Bool) : (s.setIrq b).scanline = s.scanline := rfl
@[simp] theorem State.setIrq_cassetteCounter (s : State) (b : Bool) : (s.setIrq b).cassetteCounter = s.cassetteCounter := rfl
@[simp] theorem State.setIrq_dataShiftHasData (s : State) (b : Bool) : (s.setIrq b).dataShiftHasData = s.dataShiftHasData := rfl
@[simp] theorem State.setIrq_keyboard (s : State) (b : Bool) : (s.setIrq b).keyboard = s.keyboard := rfl
@[simp] theorem State.setIrq_driver (s : State) (b : Bool) : (s.setIrq b).driver = s.driver := rfl
@[simp] theorem State.setIrq_output (s : State) (b : Bool) : (s.setIrq b).output = s.output := rfl
@[simp] theorem State.setIrq_tape (s : State) (b : Bool) : (s.setIrq b).tape = s.tape := rfl
@[simp] theorem State.setIrq_calls (s : State) (b : Bool) : (s.setIrq b).calls = s.calls := rfl

@[simp] theorem State.setNmi_a (s : State) (b : Bool) : (s.setNmi b).a = s.a := rfl
@[simp] theorem State.setNmi_x (s : State) (b : Bool) : (s.setNmi b).x = s.x := rfl
@[simp] theorem State.setNmi_y (s : State) (b : Bool) : (s.setNmi b).y = s.y := rfl
@[simp] theorem State.setNmi_sp (s : State) (b : Bool) : (s.setNmi b).sp = s.sp := rfl
@[simp] theorem State.setNmi_p (s : State) (b : Bool) : (s.setNmi b).p = s.p := rfl
@[simp] theorem State.setNmi_pc (s : State) (b : Bool) : (s.setNmi b).pc = s.pc := rfl
@[simp] theorem State.setNmi_cycleTime (s : State) (b : Bool) : (s.setNmi b).cycleTime = s.cycleTime := rfl
@[simp] theorem State.setNmi_irqPending (s : State) (b : Bool) : (s.setNmi b).irqPending = s.irqPending := rfl
@[simp] theorem State.setNmi_nmiPending (s : State) (b : Bool) : (s.setNmi b).nmiPending = b := rfl
@[simp] theorem State.setNmi_bpKind (s : State) (b : Bool) : (s.setNmi b).bpKind = s.bpKind := rfl
@[simp] theorem State.setNmi_bpAddr (s : State) (b : Bool) : (s.setNmi b).bpAddr = s.bpAddr := rfl
@[simp] theorem State.setNmi_bpHit (s : State) (b : Bool) : (s.setNmi b).bpHit = s.bpHit := rfl
@[simp] theorem State.setNmi_currentInstruction (s : State) (b : Bool) : (s.setNmi b).currentInstruction = s.currentInstruction := rfl
@[simp] theorem State.setNmi_ram (s : State) (b : Bool) : (s.setNmi b).ram = s.ram := rfl
@[simp] theorem State.setNmi_osRom (s : State) (b : Bool) : (s.setNmi b).osRom = s.osRom := rfl
@[simp] theorem State.setNmi_pagedRoms (s : State) (b : Bool) : (s.setNmi b).pagedRoms = s.pagedRoms := rfl
@[simp] theorem State.setNmi_page (s : State) (b : Bool) : (s.setNmi b).page = s.page := rfl
@[simp] theorem State.setNmi_sheila (s : State) (b : Bool) : (s.setNmi b).sheila = s.sheila := rfl
@[simp] theorem State.setNmi_intStatus (s : State) (b : Bool) : (s.setNmi b).intStatus = s.intStatus := rfl
@[simp] theorem State.setNmi_enableMask (s : State) (b : Bool) : (s.setNmi b).enableMask = s.enableMask := rfl
@[simp] theorem State.setNmi_scanline (s : State) (b : Bool) : (s.setNmi b).scanline = s.scanline := rfl
@[simp] theorem State.setNmi_cassetteCounter (s : State) (b : Bool) : (s.setNmi b).cassetteCounter = s.cassetteCounter := rfl
@[simp] theorem State.setNmi_dataShiftHasData (s : State) (b : Bool) : (s.setNmi b).dataShiftHasData = s.dataShiftHasData := rfl
@[simp] theorem State.setNmi_keyboard (s : State) (b : Bool) : (s.setNmi b).keyboard = s.keyboard := rfl
@[simp] theorem State.setNmi_driver (s : State) (b : Bool) : (s.setNmi b).driver = s.driver := rfl
@[simp] theorem State.setNmi_output (s : State) (b : Bool) : (s.setNmi b).output = s.output := rfl
@[simp] theorem State.setNmi_tape (s : State) (b : Bool) : (s.setNmi b).tape = s.tape := rfl
@[simp] theorem State.setNmi_calls (s : State) (b : Bool) : (s.setNmi b).calls = s.calls := rfl

@[simp] theorem State.setBreakpoint_a (s : State) (k : BreakpointKind) (v : Word) : (s.setBreakpoint k v).a = s.a := rfl
@[simp] theorem State.setBreakpoint_x (s : State) (k : BreakpointKind) (v : Word) : (s.setBreakpoint k v).x = s.x := rfl
@[simp] theorem State.setBreakpoint_y (s : State) (k : BreakpointKind) (v : Word) : (s.setBreakpoint k v).y = s.y := rfl
@[simp] theorem State.setBreakpoint_sp (s : State) (k : BreakpointKind) (v : Word) : (s.setBreakpoint k v).sp = s.sp := rfl
@[simp] theorem State.setBreakpoint_p (s : State) (k : BreakpointKind) (v : Word) : (s.setBreakpoint k v).p = s.p := rfl
@[simp] theorem State.setBreakpoint_pc (s : State) (k : BreakpointKind) (v : Word) : (s.setBreakpoint k v).pc = s.pc := rfl
@[simp] theorem State.setBreakpoint_cycleTime (s : State) (k : BreakpointKind) (v : Word) : (s.setBreakpoint k v).cycleTime = s.cycleTime := rfl
@[simp] theorem State.setBreakpoint_irqPending (s : State) (k : BreakpointKind) (v : Word) : (s.setBreakpoint k v).irqPending = s.irqPending := rfl
@[simp] theorem State.setBreakpoint_nmiPending (s : State) (k : BreakpointKind) (v : Word) : (s.setBreakpoint k v).nmiPending = s.nmiPending := rfl
@[simp] theorem State.setBreakpoint_bpKind (s : State) (k : BreakpointKind) (v : Word) : (s.setBreakpoint k v).bpKind = k := rfl
@[simp] theorem State.setBreakpoint_bpAddr (s : State) (k : BreakpointKind) (v : Word) : (s.setBreakpoint k v).bpAddr = v := rfl
@[simp] theorem State.setBreakpoint_bpHit (s : State) (k : BreakpointKind) (v : Word) : (s.setBreakpoint k v).bpHit = s.bpHit := rfl
@[simp] theorem State.setBreakpoint_currentInstruction (s : State) (k : BreakpointKind) (v : Word) : (s.setBreakpoint k v).currentInstruction = s.currentInstruction := rfl
@[simp] theorem State.setBreakpoint_ram (s : State) (k : BreakpointKind) (v : Word) : (s.setBreakpoint k v).ram = s.ram := rfl
@[simp] theorem State.setBreakpoint_osRom (s : State) (k : BreakpointKind) (v : Word) : (s.setBreakpoint k v).osRom = s.osRom := rfl
@[simp] theorem State.setBreakpoint_pagedRoms (s : State) (k : BreakpointKind) (v : Word) : (s.setBreakpoint k v).pagedRoms = s.pagedRoms := rfl
@[simp] theorem State.setBreakpoint_page (s : State) (k : BreakpointKind) (v : Word) : (s.setBreakpoint k v).page = s.page := rfl
@[simp] theorem State.setBreakpoint_sheila (s : State) (k : BreakpointKind) (v : Word) : (s.setBreakpoint k v).sheila = s.sheila := rfl
@[simp] theorem State.setBreakpoint_intStatus (s : State) (k : BreakpointKind) (v : Word) : (s.setBreakpoint k v).intStatus = s.intStatus := rfl
@[simp] theorem State.setBreakpoint_enableMask (s : State) (k : BreakpointKind) (v : Word) : (s.setBreakpoint k v).enableMask = s.enableMask := rfl
@[simp] theorem State.setBreakpoint_scanline (s : State) (k : BreakpointKind) (v : Word) : (s.setBreakpoint k v).scanline = s.scanline := rfl
@[simp] theorem State.setBreakpoint_cassetteCounter (s : State) (k : BreakpointKind) (v : Word) : (s.setBreakpoint k v).cassetteCounter = s.cassetteCounter := rfl
@[simp] theorem State.setBreakpoint_dataShiftHasData (s : State) (k : BreakpointKind) (v : Word) : (s.setBreakpoint k v).dataShiftHasData = s.dataShiftHasData := rfl
@[simp] theorem State.setBreakpoint_keyboard (s : State) (k : BreakpointKind) (v : Word) : (s.setBreakpoint k v).keyboard = s.keyboard := rfl
@[simp] theorem State.setBreakpoint_driver (s : State) (k : BreakpointKind) (v : Word) : (s.setBreakpoint k v).driver = s.driver := rfl
@[simp] theorem State.setBreakpoint_output (s : State) (k : BreakpointKind) (v : Word) : (s.setBreakpoint k v).output = s.output := rfl
@[simp] theorem State.setBreakpoint_tape (s : State) (k : BreakpointKind) (v : Word) : (s.setBreakpoint k v).tape = s.tape := rfl
@[simp] theorem State.setBreakpoint_calls (s : State) (k : BreakpointKind) (v : Word) : (s.setBreakpoint k v).calls = s.calls := rfl

@[simp] theorem State.setBpHit_a (s : State) (b : Bool) : (s.setBpHit b).a = s.a := rfl
@[simp] theorem State.setBpHit_x (s : State) (b : Bool) : (s.setBpHit b).x = s.x := rfl
@[simp] theorem State.setBpHit_y (s : State) (b : Bool) : (s.setBpHit b).y = s.y := rfl
@[simp] theorem State.setBpHit_sp (s : State) (b : Bool) : (s.setBpHit b).sp = s.sp := rfl
@[simp] theorem State.setBpHit_p (s : State) (b : Bool) : (s.setBpHit b).p = s.p := rfl
@[simp] theorem State.setBpHit_pc (s : State) (b : Bool) : (s.setBpHit b).pc = s.pc := rfl
@[simp] theorem State.setBpHit_cycleTime (s : State) (b : Bool) : (s.setBpHit b).cycleTime = s.cycleTime := rfl
@[simp] theorem State.setBpHit_irqPending (s : State) (b : Bool) : (s.setBpHit b).irqPending = s.irqPending := rfl
@[simp] theorem State.setBpHit_nmiPending (s : State) (b : Bool) : (s.setBpHit b).nmiPending = s.nmiPending := rfl
@[simp] theorem State.setBpHit_bpKind (s : State) (b : Bool) : (s.setBpHit b).bpKind = s.bpKind := rfl
@[simp] theorem State.setBpHit_bpAddr (s : State) (b : Bool) : (s.setBpHit b).bpAddr = s.bpAddr := rfl
@[simp] theorem State.setBpHit_bpHit (s : State) (b : Bool) : (s.setBpHit b).bpHit = b := rfl
@[simp] theorem State.setBpHit_currentInstruction (s : State) (b : Bool) : (s.setBpHit b).currentInstruction = s.currentInstruction := rfl
@[simp] theorem State.setBpHit_ram (s : State) (b : Bool) : (s.setBpHit b).ram = s.ram := rfl
@[simp] theorem State.setBpHit_osRom (s : State) (b : Bool) : (s.setBpHit b).osRom = s.osRom := rfl
@[simp] theorem State.setBpHit_pagedRoms (s : State) (b : Bool) : (s.setBpHit b).pagedRoms = s.pagedRoms := rfl
@[simp] theorem State.setBpHit_page (s : State) (b : Bool) : (s.setBpHit b).page = s.page := rfl
@[simp] theorem State.setBpHit_sheila (s : State) (b : Bool) : (s.setBpHit b).sheila = s.sheila := rfl
@[simp] theorem State.setBpHit_intStatus (s : State) (b : Bool) : (s.setBpHit b).intStatus = s.intStatus := rfl
@[simp] theorem State.setBpHit_enableMask (s : State) (b : Bool) : (s.setBpHit b).enableMask = s.enableMask := rfl
@[simp] theorem State.setBpHit_scanline (s : State) (b : Bool) : (s.setBpHit b).scanline = s.scanline := rfl
@[simp] theorem State.setBpHit_cassetteCounter (s : State) (b : Bool) : (s.setBpHit b).cassetteCounter = s.cassetteCounter := rfl
@[simp] theorem State.setBpHit_dataShiftHasData (s : State) (b : Bool) : (s.setBpHit b).dataShiftHasData = s.dataShiftHasData := rfl
@[simp] theorem State.setBpHit_keyboard (s : State) (b : Bool) : (s.setBpHit b).keyboard = s.keyboard := rfl
@[simp] theorem State.setBpHit_driver (s : State) (b : Bool) : (s.setBpHit b).driver = s.driver := rfl
@[simp] theorem State.setBpHit_output (s : State) (b : Bool) : (s.setBpHit b).output = s.output := rfl
@[simp] theorem State.setBpHit_tape (s : State) (b : Bool) : (s.setBpHit b).tape = s.tape := rfl
@[simp] theorem State.setBpHit_calls (s : State) (b : Bool) : (s.setBpHit b).calls = s.calls := rfl

@[simp] theorem State.setCurrent_a (s : State) (v : Byte) : (s.setCurrent v).a = s.a := rfl
@[simp] theorem State.setCurrent_x (s : State) (v : Byte) : (s.setCurrent v).x = s.x := rfl
@[simp] theorem State.setCurrent_y (s : State) (v : Byte) : (s.setCurrent v).y = s.y := rfl
@[simp] theorem State.setCurrent_sp (s : State) (v : Byte) : (s.setCurrent v).sp = s.sp := rfl
@[simp] theorem State.setCurrent_p (s : State) (v : Byte) : (s.setCurrent v).p = s.p := rfl
@[simp] theorem State.setCurrent_pc (s : State) (v : Byte) : (s.setCurrent v).pc = s.pc := rfl
@[simp] theorem State.setCurrent_cycleTime (s : State) (v : Byte) : (s.setCurrent v).cycleTime = s.cycleTime := rfl
@[simp] theorem State.setCurrent_irqPending (s : State) (v : Byte) : (s.setCurrent v).irqPending = s.irqPending := rfl
@[simp] theorem State.setCurrent_nmiPending (s : State) (v : Byte) : (s.setCurrent v).nmiPending = s.nmiPending := rfl
@[simp] theorem State.setCurrent_bpKind (s : State) (v : Byte) : (s.setCurrent v).bpKind = s.bpKind := rfl
@[simp] theorem State.setCurrent_bpAddr (s : State) (v : Byte) : (s.setCurrent v).bpAddr = s.bpAddr := rfl
@[simp] theorem State.setCurrent_bpHit (s : State) (v : Byte) : (s.setCurrent v).bpHit = s.bpHit := rfl
@[simp] theorem State.setCurrent_currentInstruction (s : State) (v : Byte) : (s.setCurrent v).currentInstruction = v := rfl
@[simp] theorem State.setCurrent_ram (s : State) (v : Byte) : (s.setCurrent v).ram = s.ram := rfl
@[simp] theorem State.setCurrent_osRom (s : State) (v : Byte) : (s.setCurrent v).osRom = s.osRom := rfl
@[simp] theorem State.setCurrent_pagedRoms (s : State) (v : Byte) : (s.setCurrent v).pagedRoms = s.pagedRoms := rfl
@[simp] theorem State.setCurrent_page (s : State) (v : Byte) : (s.setCurrent v).page = s.page := rfl
@[simp] theorem State.setCurrent_sheila (s : State) (v : Byte) : (s.setCurrent v).sheila = s.sheila := rfl
@[simp] theorem State.setCurrent_intStatus (s : State) (v : Byte) : (s.setCurrent v).intStatus = s.intStatus := rfl
@[simp] theorem State.setCurrent_enableMask (s : State) (v : Byte) : (s.setCurrent v).enableMask = s.enableMask := rfl
@[simp] theorem State.setCurrent_scanline (s : State) (v : Byte) : (s.setCurrent v).scanline = s.scanline := rfl
@[simp] theorem State.setCurrent_cassetteCounter (s : State) (v : Byte) : (s.setCurrent v).cassetteCounter = s.cassetteCounter := rfl
@[simp] theorem State.setCurrent_dataShiftHasData (s : State) (v : Byte) : (s.setCurrent v).dataShiftHasData = s.dataShiftHasData := rfl
@[simp] theorem State.setCurrent_keyboard (s : State) (v : Byte) : (s.setCurrent v).keyboard = s.keyboard := rfl
@[simp] theorem State.setCurrent_driver (s : State) (v : Byte) : (s.setCurrent v).driver = s.driver := rfl
@[simp] theorem State.setCurrent_output (s : State) (v : Byte) : (s.setCurrent v).output = s.output := rfl
@[simp] theorem State.setCurrent_tape (s : State) (v : Byte) : (s.setCurrent v).tape = s.tape := rfl
@[simp] theorem State.setCurrent_calls (s : State) (v : Byte) : (s.setCurrent v).calls = s.calls := rfl

@[simp] theorem State.setRam_a (s : State) (m : List Host.Cell) : (s.setRam m).a = s.a := rfl
@[simp] theorem State.setRam_x (s : State) (m : List Host.Cell) : (s.setRam m).x = s.x := rfl
@[simp] theorem State.setRam_y (s : State) (m : List Host.Cell) : (s.setRam m).y = s.y := rfl
@[simp] theorem State.setRam_sp (s : State) (m : List Host.Cell) : (s.setRam m).sp = s.sp := rfl
@[simp] theorem State.setRam_p (s : State) (m : List Host.Cell) : (s.setRam m).p = s.p := rfl
@[simp] theorem State.setRam_pc (s : State) (m : List Host.Cell) : (s.setRam m).pc = s.pc := rfl
@[simp] theorem State.setRam_cycleTime (s : State) (m : List Host.Cell) : (s.setRam m).cycleTime = s.cycleTime := rfl
@[simp] theorem State.setRam_irqPending (s : State) (m : List Host.Cell) : (s.setRam m).irqPending = s.irqPending := rfl
@[simp] theorem State.setRam_nmiPending (s : State) (m : List Host.Cell) : (s.setRam m).nmiPending = s.nmiPending := rfl
@[simp] theorem State.setRam_bpKind (s : State) (m : List Host.Cell) : (s.setRam m).bpKind = s.bpKind := rfl
@[simp] theorem State.setRam_bpAddr (s : State) (m : List Host.Cell) : (s.setRam m).bpAddr = s.bpAddr := rfl
@[simp] theorem State.setRam_bpHit (s : State) (m : List Host.Cell) : (s.setRam m).bpHit = s.bpHit := rfl
@[simp] theorem State.setRam_currentInstruction (s : State) (m : List Host.Cell) : (s.setRam m).currentInstruction = s.currentInstruction := rfl
@[simp] theorem State.setRam_ram (s : State) (m : List Host.Cell) : (s.setRam m).ram = m := rfl
@[simp] theorem State.setRam_osRom (s : State) (m : List Host.Cell) : (s.setRam m).osRom = s.osRom := rfl
@[simp] theorem State.setRam_pagedRoms (s : State) (m : List Host.Cell) : (s.setRam m).pagedRoms = s.pagedRoms := rfl
@[simp] theorem State.setRam_page (s : State) (m : List Host.Cell) : (s.setRam m).page = s.page := rfl
@[simp] theorem State.setRam_sheila (s : State) (m : List Host.Cell) : (s.setRam m).sheila = s.sheila := rfl
@[simp] theorem State.setRam_intStatus (s : State) (m : List Host.Cell) : (s.setRam m).intStatus = s.intStatus := rfl
@[simp] theorem State.setRam_enableMask (s : State) (m : List Host.Cell) : (s.setRam m).enableMask = s.enableMask := rfl
@[simp] theorem State.setRam_scanline (s : State) (m : List Host.Cell) : (s.setRam m).scanline = s.scanline := rfl
@[simp] theorem State.setRam_cassetteCounter (s : State) (m : List Host.Cell) : (s.setRam m).cassetteCounter = s.cassetteCounter := rfl
@[simp] theorem State.setRam_dataShiftHasData (s : State) (m : List Host.Cell) : (s.setRam m).dataShiftHasData = s.dataShiftHasData := rfl
@[simp] theorem State.setRam_keyboard (s : State) (m : List Host.Cell) : (s.setRam m).keyboard = s.keyboard := rfl
@[simp] theorem State.setRam_driver (s : State) (m : List Host.Cell) : (s.setRam m).driver = s.driver := rfl
@[simp] theorem State.setRam_output (s : State) (m : List Host.Cell) : (s.setRam m).output = s.output := rfl
@[simp] theorem State.setRam_tape (s : State) (m : List Host.Cell) : (s.setRam m).tape = s.tape := rfl
@[simp] theorem State.setRam_calls (s : State) (m : List Host.Cell) : (s.setRam m).calls = s.calls := rfl

@[simp] theorem State.setOsRom_a (s : State) (r : Option RomImage) : (s.setOsRom r).a = s.a := rfl
@[simp] theorem State.setOsRom_x (s : State) (r : Option RomImage) : (s.setOsRom r).x = s.x := rfl
@[simp] theorem State.setOsRom_y (s : State) (r : Option RomImage) : (s.setOsRom r).y = s.y := rfl
@[simp] theorem State.setOsRom_sp (s : State) (r : Option RomImage) : (s.setOsRom r).sp = s.sp := rfl
@[simp] theorem State.setOsRom_p (s : State) (r : Option RomImage) : (s.setOsRom r).p = s.p := rfl
@[simp] theorem State.setOsRom_pc (s : State) (r : Option RomImage) : (s.setOsRom r).pc = s.pc := rfl
@[simp] theorem State.setOsRom_cycleTime (s : State) (r : Option RomImage) : (s.setOsRom r).cycleTime = s.cycleTime := rfl
@[simp] theorem State.setOsRom_irqPending (s : State) (r : Option RomImage) : (s.setOsRom r).irqPending = s.irqPending := rfl
@[simp] theorem State.setOsRom_nmiPending (s : State) (r : Option RomImage) : (s.setOsRom r).nmiPending = s.nmiPending := rfl
@[simp] theorem State.setOsRom_bpKind (s : State) (r : Option RomImage) : (s.setOsRom r).bpKind = s.bpKind := rfl
@[simp] theorem State.setOsRom_bpAddr (s : State) (r : Option RomImage) : (s.setOsRom r).bpAddr = s.bpAddr := rfl
@[simp] theorem State.setOsRom_bpHit (s : State) (r : Option RomImage) : (s.setOsRom r).bpHit = s.bpHit := rfl
@[simp] theorem State.setOsRom_currentInstruction (s : State) (r : Option RomImage) : (s.setOsRom r).currentInstruction = s.currentInstruction := rfl
@[simp] theorem State.setOsRom_ram (s : State) (r : Option RomImage) : (s.setOsRom r).ram = s.ram := rfl
@[simp] theorem State.setOsRom_osRom (s : State) (r : Option RomImage) : (s.setOsRom r).osRom = r := rfl
@[simp] theorem State.setOsRom_pagedRoms (s : State) (r : Option RomImage) : (s.setOsRom r).pagedRoms = s.pagedRoms := rfl
@[simp] theorem State.setOsRom_page (s : State) (r : Option RomImage) : (s.setOsRom r).page = s.page := rfl
@[simp] theorem State.setOsRom_sheila (s : State) (r : Option RomImage) : (s.setOsRom r).sheila = s.sheila := rfl
@[simp] theorem State.setOsRom_intStatus (s : State) (r : Option RomImage) : (s.setOsRom r).intStatus = s.intStatus := rfl
@[simp] theorem State.setOsRom_enableMask (s : State) (r : Option RomImage) : (s.setOsRom r).enableMask = s.enableMask := rfl
@[simp] theorem State.setOsRom_scanline (s : State) (r : Option RomImage) : (s.setOsRom r).scanline = s.scanline := rfl
@[simp] theorem State.setOsRom_cassetteCounter (s : State) (r : Option RomImage) : (s.setOsRom r).cassetteCounter = s.cassetteCounter := rfl
@[simp] theorem State.setOsRom_dataShiftHasData (s : State) (r : Option RomImage) : (s.setOsRom r).dataShiftHasData = s.dataShiftHasData := rfl
@[simp] theorem State.setOsRom_keyboard (s : State) (r : Option RomImage) : (s.setOsRom r).keyboard = s.keyboard := rfl
@[simp] theorem State.setOsRom_driver (s : State) (r : Option RomImage) : (s.setOsRom r).driver = s.driver := rfl
@[simp] theorem State.setOsRom_output (s : State) (r : Option RomImage) : (s.setOsRom r).output = s.output := rfl
@[simp] theorem State.setOsRom_tape (s : State) (r : Option RomImage) : (s.setOsRom r).tape = s.tape := rfl
@[simp] theorem State.setOsRom_calls (s : State) (r : Option RomImage) : (s.setOsRom r).calls = s.calls := rfl

@[simp] theorem State.setPagedRoms_a (s : State) (r : Vector (Option RomImage) 16) : (s.setPagedRoms r).a = s.a := rfl
@[simp] theorem State.setPagedRoms_x (s : State) (r : Vector (Option RomImage) 16) : (s.setPagedRoms r).x = s.x := rfl
@[simp] theorem State.setPagedRoms_y (s : State) (r : Vector (Option RomImage) 16) : (s.setPagedRoms r).y = s.y := rfl
@[simp] theorem State.setPagedRoms_sp (s : State) (r : Vector (Option RomImage) 16) : (s.setPagedRoms r).sp = s.sp := rfl
@[simp] theorem State.setPagedRoms_p (s : State) (r : Vector (Option RomImage) 16) : (s.setPagedRoms r).p = s.p := rfl
@[simp] theorem State.setPagedRoms_pc (s : State) (r : Vector (Option RomImage) 16) : (s.setPagedRoms r).pc = s.pc := rfl
@[simp] theorem State.setPagedRoms_cycleTime (s : State) (r : Vector (Option RomImage) 16) : (s.setPagedRoms r).cycleTime = s.cycleTime := rfl
@[simp] theorem State.setPagedRoms_irqPending (s : State) (r : Vector (Option RomImage) 16) : (s.setPagedRoms r).irqPending = s.irqPending := rfl
@[simp] theorem State.setPagedRoms_nmiPending (s : State) (r : Vector (Option RomImage) 16) : (s.setPagedRoms r).nmiPending = s.nmiPending := rfl
@[simp] theorem State.setPagedRoms_bpKind (s : State) (r : Vector (Option RomImage) 16) : (s.setPagedRoms r).bpKind = s.bpKind := rfl
@[simp] theorem State.setPagedRoms_bpAddr (s : State) (r : Vector (Option RomImage) 16) : (s.setPagedRoms r).bpAddr = s.bpAddr := rfl
@[simp] theorem State.setPagedRoms_bpHit (s : State) (r : Vector (Option RomImage) 16) : (s.setPagedRoms r).bpHit = s.bpHit := rfl
@[simp] theorem State.setPagedRoms_currentInstruction (s : State) (r : Vector (Option RomImage) 16) : (s.setPagedRoms r).currentInstruction = s.currentInstruction := rfl
@[simp] theorem State.setPagedRoms_ram (s : State) (r : Vector (Option RomImage) 16) : (s.setPagedRoms r).ram = s.ram := rfl
@[simp] theorem State.setPagedRoms_osRom (s : State) (r : Vector (Option RomImage) 16) : (s.setPagedRoms r).osRom = s.osRom := rfl
@[simp] theorem State.setPagedRoms_pagedRoms (s : State) (r : Vector (Option RomImage) 16) : (s.setPagedRoms r).pagedRoms = r := rfl
@[simp] theorem State.setPagedRoms_page (s : State) (r : Vector (Option RomImage) 16) : (s.setPagedRoms r).page = s.page := rfl
@[simp] theorem State.setPagedRoms_sheila (s : State) (r : Vector (Option RomImage) 16) : (s.setPagedRoms r).sheila = s.sheila := rfl
@[simp] theorem State.setPagedRoms_intStatus (s : State) (r : Vector (Option RomImage) 16) : (s.setPagedRoms r).intStatus = s.intStatus := rfl
@[simp] theorem State.setPagedRoms_enableMask (s : State) (r : Vector (Option RomImage) 16) : (s.setPagedRoms r).enableMask = s.enableMask := rfl
@[simp] theorem State.setPagedRoms_scanline (s : State) (r : Vector (Option RomImage) 16) : (s.setPagedRoms r).scanline = s.scanline := rfl
@[simp] theorem State.setPagedRoms_cassetteCounter (s : State) (r : Vector (Option RomImage) 16) : (s.setPagedRoms r).cassetteCounter = s.cassetteCounter := rfl
@[simp] theorem State.setPagedRoms_dataShiftHasData (s : State) (r : Vector (Option RomImage) 16) : (s.setPagedRoms r).dataShiftHasData = s.dataShiftHasData := rfl
@[simp] theorem State.setPagedRoms_keyboard (s : State) (r : Vector (Option RomImage) 16) : (s.setPagedRoms r).keyboard = s.keyboard := rfl
@[simp] theorem State.setPagedRoms_driver (s : State) (r : Vector (Option RomImage) 16) : (s.setPagedRoms r).driver = s.driver := rfl
@[simp] theorem State.setPagedRoms_output (s : State) (r : Vector (Option RomImage) 16) : (s.setPagedRoms r).output = s.output := rfl
@[simp] theorem State.setPagedRoms_tape (s : State) (r : Vector (Option RomImage) 16) : (s.setPagedRoms r).tape = s.tape := rfl
@[simp] theorem State.setPagedRoms_calls (s : State) (r : Vector (Option RomImage) 16) : (s.setPagedRoms r).calls = s.calls := rfl

@[simp] theorem State.setPage_a (s : State) (v : BitVec 4) : (s.setPage v).a = s.a := rfl
@[simp] theorem State.setPage_x (s : State) (v : BitVec 4) : (s.setPage v).x = s.x := rfl
@[simp] theorem State.setPage_y (s : State) (v : BitVec 4) : (s.setPage v).y = s.y := rfl
@[simp] theorem State.setPage_sp (s : State) (v : BitVec 4) : (s.setPage v).sp = s.sp := rfl
@[simp] theorem State.setPage_p (s : State) (v : BitVec 4) : (s.setPage v).p = s.p := rfl
@[simp] theorem State.setPage_pc (s : State) (v : BitVec 4) : (s.setPage v).pc = s.pc := rfl
@[simp] theorem State.setPage_cycleTime (s : State) (v : BitVec 4) : (s.setPage v).cycleTime = s.cycleTime := rfl
@[simp] theorem State.setPage_irqPending (s : State) (v : BitVec 4) : (s.setPage v).irqPending = s.irqPending := rfl
@[simp] theorem State.setPage_nmiPending (s : State) (v : BitVec 4) : (s.setPage v).nmiPending = s.nmiPending := rfl
@[simp] theorem State.setPage_bpKind (s : State) (v : BitVec 4) : (s.setPage v).bpKind = s.bpKind := rfl
@[simp] theorem State.setPage_bpAddr (s : State) (v : BitVec 4) : (s.setPage v).bpAddr = s.bpAddr := rfl
@[simp] theorem State.setPage_bpHit (s : State) (v : BitVec 4) : (s.setPage v).bpHit = s.bpHit := rfl
@[simp] theorem State.setPage_currentInstruction (s : State) (v : BitVec 4) : (s.setPage v).currentInstruction = s.currentInstruction := rfl
@[simp] theorem State.setPage_ram (s : State) (v : BitVec 4) : (s.setPage v).ram = s.ram := rfl
@[simp] theorem State.setPage_osRom (s : State) (v : BitVec 4) : (s.setPage v).osRom = s.osRom := rfl
@[simp] theorem State.setPage_pagedRoms (s : State) (v : BitVec 4) : (s.setPage v).pagedRoms = s.pagedRoms := rfl
@[simp] theorem State.setPage_page (s : State) (v : BitVec 4) : (s.setPage v).page = v := rfl
@[simp] theorem State.setPage_sheila (s : State) (v : BitVec 4) : (s.setPage v).sheila = s.sheila := rfl
@[simp] theorem State.setPage_intStatus (s : State) (v : BitVec 4) : (s.setPage v).intStatus = s.intStatus := rfl
@[simp] theorem State.setPage_enableMask (s : State) (v : BitVec 4) : (s.setPage v).enableMask = s.enableMask := rfl
@[simp] theorem State.setPage_scanline (s : State) (v : BitVec 4) : (s.setPage v).scanline = s.scanline := rfl
@[simp] theorem State.setPage_cassetteCounter (s : State) (v : BitVec 4) : (s.setPage v).cassetteCounter = s.cassetteCounter := rfl
@[simp] theorem State.setPage_dataShiftHasData (s : State) (v : BitVec 4) : (s.setPage v).dataShiftHasData = s.dataShiftHasData := rfl
@[simp] theorem State.setPage_keyboard (s : State) (v : BitVec 4) : (s.setPage v).keyboard = s.keyboard := rfl
@[simp] theorem State.setPage_driver (s : State) (v : BitVec 4) : (s.setPage v).driver = s.driver := rfl
@[simp] theorem State.setPage_output (s : State) (v : BitVec 4) : (s.setPage v).output = s.output := rfl
@[simp] theorem State.setPage_tape (s : State) (v : BitVec 4) : (s.setPage v).tape = s.tape := rfl
@[simp] theorem State.setPage_calls (s : State) (v : BitVec 4) : (s.setPage v).calls = s.calls := rfl

@[simp] theorem State.setSheila_a (s : State) (k : Fin 16) (v : Byte) : (s.setSheila k v).a = s.a := rfl
@[simp] theorem State.setSheila_x (s : State) (k : Fin 16) (v : Byte) : (s.setSheila k v).x = s.x := rfl
@[simp] theorem State.setSheila_y (s : State) (k : Fin 16) (v : Byte) : (s.setSheila k v).y = s.y := rfl
@[simp] theorem State.setSheila_sp (s : State) (k : Fin 16) (v : Byte) : (s.setSheila k v).sp = s.sp := rfl
@[simp] theorem State.setSheila_p (s : State) (k : Fin 16) (v : Byte) : (s.setSheila k v).p = s.p := rfl
@[simp] theorem State.setSheila_pc (s : State) (k : Fin 16) (v : Byte) : (s.setSheila k v).pc = s.pc := rfl
@[simp] theorem State.setSheila_cycleTime (s : State) (k : Fin 16) (v : Byte) : (s.setSheila k v).cycleTime = s.cycleTime := rfl
@[simp] theorem State.setSheila_irqPending (s : State) (k : Fin 16) (v : Byte) : (s.setSheila k v).irqPending = s.irqPending := rfl
@[simp] theorem State.setSheila_nmiPending (s : State) (k : Fin 16) (v : Byte) : (s.setSheila k v).nmiPending = s.nmiPending := rfl
@[simp] theorem State.setSheila_bpKind (s : State) (k : Fin 16) (v : Byte) : (s.setSheila k v).bpKind = s.bpKind := rfl
@[simp] theorem State.setSheila_bpAddr (s : State) (k : Fin 16) (v : Byte) : (s.setSheila k v).bpAddr = s.bpAddr := rfl
@[simp] theorem State.setSheila_bpHit (s : State) (k : Fin 16) (v : Byte) : (s.setSheila k v).bpHit = s.bpHit := rfl
@[simp] theorem State.setSheila_currentInstruction (s : State) (k : Fin 16) (v : Byte) : (s.setSheila k v).currentInstruction = s.currentInstruction := rfl
@[simp] theorem State.setSheila_ram (s : State) (k : Fin 16) (v : Byte) : (s.setSheila k v).ram = s.ram := rfl
@[simp] theorem State.setSheila_osRom (s : State) (k : Fin 16) (v : Byte) : (s.setSheila k v).osRom = s.osRom := rfl
@[simp] theorem State.setSheila_pagedRoms (s : State) (k : Fin 16) (v : Byte) : (s.setSheila k v).pagedRoms = s.pagedRoms := rfl
@[simp] theorem State.setSheila_page (s : State) (k : Fin 16) (v : Byte) : (s.setSheila k v).page = s.page := rfl
@[simp] theorem State.setSheila_sheila (s : State) (k : Fin 16) (v : Byte) : (s.setSheila k v).sheila = s.sheila.set k v := rfl
@[simp] theorem State.setSheila_intStatus (s : State) (k : Fin 16) (v : Byte) : (s.setSheila k v).intStatus = s.intStatus := rfl
@[simp] theorem State.setSheila_enableMask (s : State) (k : Fin 16) (v : Byte) : (s.setSheila k v).enableMask = s.enableMask := rfl
@[simp] theorem State.setSheila_scanline (s : State) (k : Fin 16) (v : Byte) : (s.setSheila k v).scanline = s.scanline := rfl
@[simp] theorem State.setSheila_cassetteCounter (s : State) (k : Fin 16) (v : Byte) : (s.setSheila k v).cassetteCounter = s.cassetteCounter := rfl
@[simp] theorem State.setSheila_dataShiftHasData (s : State) (k : Fin 16) (v : Byte) : (s.setSheila k v).dataShiftHasData = s.dataShiftHasData := rfl
@[simp] theorem State.setSheila_keyboard (s : State) (k : Fin 16) (v : Byte) : (s.setSheila k v).keyboard = s.keyboard := rfl
@[simp] theorem State.setSheila_driver (s : State) (k : Fin 16) (v : Byte) : (s.setSheila k v).driver = s.driver := rfl
@[simp] theorem State.setSheila_output (s : State) (k : Fin 16) (v : Byte) : (s.setSheila k v).output = s.output := rfl
@[simp] theorem State.setSheila_tape (s : State) (k : Fin 16) (v : Byte) : (s.setSheila k v).tape = s.tape := rfl
@[simp] theorem State.setSheila_calls (s : State) (k : Fin 16) (v : Byte) : (s.setSheila k v).calls = s.calls := rfl

@[simp] theorem State.setIntStatus_a (s : State) (v : Byte) : (s.setIntStatus v).a = s.a := rfl
@[simp] theorem State.setIntStatus_x (s : State) (v : Byte) : (s.setIntStatus v).x = s.x := rfl
@[simp] theorem State.setIntStatus_y (s : State) (v : Byte) : (s.setIntStatus v).y = s.y := rfl
@[simp] theorem State.setIntStatus_sp (s : State) (v : Byte) : (s.setIntStatus v).sp = s.sp := rfl
@[simp] theorem State.setIntStatus_p (s : State) (v : Byte) : (s.setIntStatus v).p = s.p := rfl
@[simp] theorem State.setIntStatus_pc (s : State) (v : Byte) : (s.setIntStatus v).pc = s.pc := rfl
@[simp] theorem State.setIntStatus_cycleTime (s : State) (v : Byte) : (s.setIntStatus v).cycleTime = s.cycleTime := rfl
@[simp] theorem State.setIntStatus_irqPending (s : State) (v : Byte) : (s.setIntStatus v).irqPending = s.irqPending := rfl
@[simp] theorem State.setIntStatus_nmiPending (s : State) (v : Byte) : (s.setIntStatus v).nmiPending = s.nmiPending := rfl
@[simp] theorem State.setIntStatus_bpKind (s : State) (v : Byte) : (s.setIntStatus v).bpKind = s.bpKind := rfl
@[simp] theorem State.setIntStatus_bpAddr (s : State) (v : Byte) : (s.setIntStatus v).bpAddr = s.bpAddr := rfl
@[simp] theorem State.setIntStatus_bpHit (s : State) (v : Byte) : (s.setIntStatus v).bpHit = s.bpHit := rfl
@[simp] theorem State.setIntStatus_currentInstruction (s : State) (v : Byte) : (s.setIntStatus v).currentInstruction = s.currentInstruction := rfl
@[simp] theorem State.setIntStatus_ram (s : State) (v : Byte) : (s.setIntStatus v).ram = s.ram := rfl
@[simp] theorem State.setIntStatus_osRom (s : State) (v : Byte) : (s.setIntStatus v).osRom = s.osRom := rfl
@[simp] theorem State.setIntStatus_pagedRoms (s : State) (v : Byte) : (s.setIntStatus v).pagedRoms = s.pagedRoms := rfl
@[simp] theorem State.setIntStatus_page (s : State) (v : Byte) : (s.setIntStatus v).page = s.page := rfl
@[simp] theorem State.setIntStatus_sheila (s : State) (v : Byte) : (s.setIntStatus v).sheila = s.sheila := rfl
@[simp] theorem State.setIntStatus_intStatus (s : State) (v : Byte) : (s.setIntStatus v).intStatus = v := rfl
@[simp] theorem State.setIntStatus_enableMask (s : State) (v : Byte) : (s.setIntStatus v).enableMask = s.enableMask := rfl
@[simp] theorem State.setIntStatus_scanline (s : State) (v : Byte) : (s.setIntStatus v).scanline = s.scanline := rfl
@[simp] theorem State.setIntStatus_cassetteCounter (s : State) (v : Byte) : (s.setIntStatus v).cassetteCounter = s.cassetteCounter := rfl
@[simp] theorem State.setIntStatus_dataShiftHasData (s : State) (v : Byte) : (s.setIntStatus v).dataShiftHasData = s.dataShiftHasData := rfl
@[simp] theorem State.setIntStatus_keyboard (s : State) (v : Byte) : (s.setIntStatus v).keyboard = s.keyboard := rfl
@[simp] theorem State.setIntStatus_driver (s : State) (v : Byte) : (s.setIntStatus v).driver = s.driver := rfl
@[simp] theorem State.setIntStatus_output (s : State) (v : Byte) : (s.setIntStatus v).output = s.output := rfl
@[simp] theorem State.setIntStatus_tape (s : State) (v : Byte) : (s.setIntStatus v).tape = s.tape := rfl
@[simp] theorem State.setIntStatus_calls (s : State) (v : Byte) : (s.setIntStatus v).calls = s.calls := rfl

@[simp] theorem State.setEnableMask_a (s : State) (v : Byte) : (s.setEnableMask v).a = s.a := rfl
@[simp] theorem State.setEnableMask_x (s : State) (v : Byte) : (s.setEnableMask v).x = s.x := rfl
@[simp] theorem State.setEnableMask_y (s : State) (v : Byte) : (s.setEnableMask v).y = s.y := rfl
@[simp] theorem State.setEnableMask_sp (s : State) (v : Byte) : (s.setEnableMask v).sp = s.sp := rfl
@[simp] theorem State.setEnableMask_p (s : State) (v : Byte) : (s.setEnableMask v).p = s.p := rfl
@[simp] theorem State.setEnableMask_pc (s : State) (v : Byte) : (s.setEnableMask v).pc = s.pc := rfl
@[simp] theorem State.setEnableMask_cycleTime (s : State) (v : Byte) : (s.setEnableMask v).cycleTime = s.cycleTime := rfl
@[simp] theorem State.setEnableMask_irqPending (s : State) (v : Byte) : (s.setEnableMask v).irqPending = s.irqPending := rfl
@[simp] theorem State.setEnableMask_nmiPending (s : State) (v : Byte) : (s.setEnableMask v).nmiPending = s.nmiPending := rfl
@[simp] theorem State.setEnableMask_bpKind (s : State) (v : Byte) : (s.setEnableMask v).bpKind = s.bpKind := rfl
@[simp] theorem State.setEnableMask_bpAddr (s : State) (v : Byte) : (s.setEnableMask v).bpAddr = s.bpAddr := rfl
@[simp] theorem State.setEnableMask_bpHit (s : State) (v : Byte) : (s.setEnableMask v).bpHit = s.bpHit := rfl
@[simp] theorem State.setEnableMask_currentInstruction (s : State) (v : Byte) : (s.setEnableMask v).currentInstruction = s.currentInstruction := rfl
@[simp] theorem State.setEnableMask_ram (s : State) (v : Byte) : (s.setEnableMask v).ram = s.ram := rfl
@[simp] theorem State.setEnableMask_osRom (s : State) (v : Byte) : (s.setEnableMask v).osRom = s.osRom := rfl
@[simp] theorem State.setEnableMask_pagedRoms (s : State) (v : Byte) : (s.setEnableMask v).pagedRoms = s.pagedRoms := rfl
@[simp] theorem State.setEnableMask_page (s : State) (v : Byte) : (s.setEnableMask v).page = s.page := rfl
@[simp] theorem State.setEnableMask_sheila (s : State) (v : Byte) : (s.setEnableMask v).sheila = s.sheila := rfl
@[simp] theorem State.setEnableMask_intStatus (s : State) (v : Byte) : (s.setEnableMask v).intStatus = s.intStatus := rfl
@[simp] theorem State.setEnableMask_enableMask (s : State) (v : Byte) : (s.setEnableMask v).enableMask = v := rfl
@[simp] theorem State.setEnableMask_scanline (s : State) (v : Byte) : (s.setEnableMask v).scanline = s.scanline := rfl
@[simp] theorem State.setEnableMask_cassetteCounter (s : State) (v : Byte) : (s.setEnableMask v).cassetteCounter = s.cassetteCounter := rfl
@[simp] theorem State.setEnableMask_dataShiftHasData (s : State) (v : Byte) : (s.setEnableMask v).dataShiftHasData = s.dataShiftHasData := rfl
@[simp] theorem State.setEnableMask_keyboard (s : State) (v : Byte) : (s.setEnableMask v).keyboard = s.keyboard := rfl
@[simp] theorem State.setEnableMask_driver (s : State) (v : Byte) : (s.setEnableMask v).driver = s.driver := rfl
@[simp] theorem State.setEnableMask_output (s : State) (v : Byte) : (s.setEnableMask v).output = s.output := rfl
@[simp] theorem State.setEnableMask_tape (s : State) (v : Byte) : (s.setEnableMask v).tape = s.tape := rfl
@[simp] theorem State.setEnableMask_calls (s : State) (v : Byte) : (s.setEnableMask v).calls = s.calls := rfl

@[simp] theorem State.setScanline_a (s : State) (n : Nat) : (s.setScanline n).a = s.a := rfl
@[simp] theorem State.setScanline_x (s : State) (n : Nat) : (s.setScanline n).x = s.x := rfl
@[simp] theorem State.setScanline_y (s : State) (n : Nat) : (s.setScanline n).y = s.y := rfl
@[simp] theorem State.setScanline_sp (s : State) (n : Nat) : (s.setScanline n).sp = s.sp := rfl
@[simp] theorem State.setScanline_p (s : State) (n : Nat) : (s.setScanline n).p = s.p := rfl
@[simp] theorem State.setScanline_pc (s : State) (n : Nat) : (s.setScanline n).pc = s.pc := rfl
@[simp] theorem State.setScanline_cycleTime (s : State) (n : Nat) : (s.setScanline n).cycleTime = s.cycleTime := rfl
@[simp] theorem State.setScanline_irqPending (s : State) (n : Nat) : (s.setScanline n).irqPending = s.irqPending := rfl
@[simp] theorem State.setScanline_nmiPending (s : State) (n : Nat) : (s.setScanline n).nmiPending = s.nmiPending := rfl
@[simp] theorem State.setScanline_bpKind (s : State) (n : Nat) : (s.setScanline n).bpKind = s.bpKind := rfl
@[simp] theorem State.setScanline_bpAddr (s : State) (n : Nat) : (s.setScanline n).bpAddr = s.bpAddr := rfl
@[simp] theorem State.setScanline_bpHit (s : State) (n : Nat) : (s.setScanline n).bpHit = s.bpHit := rfl
@[simp] theorem State.setScanline_currentInstruction (s : State) (n : Nat) : (s.setScanline n).currentInstruction = s.currentInstruction := rfl
@[simp] theorem State.setScanline_ram (s : State) (n : Nat) : (s.setScanline n).ram = s.ram := rfl
@[simp] theorem State.setScanline_osRom (s : State) (n : Nat) : (s.setScanline n).osRom = s.osRom := rfl
@[simp] theorem State.setScanline_pagedRoms (s : State) (n : Nat) : (s.setScanline n).pagedRoms = s.pagedRoms := rfl
@[simp] theorem State.setScanline_page (s : State) (n : Nat) : (s.setScanline n).page = s.page := rfl
@[simp] theorem State.setScanline_sheila (s : State) (n : Nat) : (s.setScanline n).sheila = s.sheila := rfl
@[simp] theorem State.setScanline_intStatus (s : State) (n : Nat) : (s.setScanline n).intStatus = s.intStatus := rfl
@[simp] theorem State.setScanline_enableMask (s : State) (n : Nat) : (s.setScanline n).enableMask = s.enableMask := rfl
@[simp] theorem State.setScanline_scanline (s : State) (n : Nat) : (s.setScanline n).scanline = n := rfl
@[simp] theorem State.setScanline_cassetteCounter (s : State) (n : Nat) : (s.setScanline n).cassetteCounter = s.cassetteCounter := rfl
@[simp] theorem State.setScanline_dataShiftHasData (s : State) (n : Nat) : (s.setScanline n).dataShiftHasData = s.dataShiftHasData := rfl
@[simp] theorem State.setScanline_keyboard (s : State) (n : Nat) : (s.setScanline n).keyboard = s.keyboard := rfl
@[simp] theorem State.setScanline_driver (s : State) (n : Nat) : (s.setScanline n).driver = s.driver := rfl
@[simp] theorem State.setScanline_output (s : State) (n : Nat) : (s.setScanline n).output = s.output := rfl
@[simp] theorem State.setScanline_tape (s : State) (n : Nat) : (s.setScanline n).tape = s.tape := rfl
@[simp] theorem State.setScanline_calls (s : State) (n : Nat) : (s.setScanline n).calls = s.calls := rfl

@[simp] theorem State.setCassetteCounter_a (s : State) (n : Nat) : (s.setCassetteCounter n).a = s.a := rfl
@[simp] theorem State.setCassetteCounter_x (s : State) (n : Nat) : (s.setCassetteCounter n).x = s.x := rfl
@[simp] theorem State.setCassetteCounter_y (s : State) (n : Nat) : (s.setCassetteCounter n).y = s.y := rfl
@[simp] theorem State.setCassetteCounter_sp (s : State) (n : Nat) : (s.setCassetteCounter n).sp = s.sp := rfl
@[simp] theorem State.setCassetteCounter_p (s : State) (n : Nat) : (s.setCassetteCounter n).p = s.p := rfl
@[simp] theorem State.setCassetteCounter_pc (s : State) (n : Nat) : (s.setCassetteCounter n).pc = s.pc := rfl
@[simp] theorem State.setCassetteCounter_cycleTime (s : State) (n : Nat) : (s.setCassetteCounter n).cycleTime = s.cycleTime := rfl
@[simp] theorem State.setCassetteCounter_irqPending (s : State) (n : Nat) : (s.setCassetteCounter n).irqPending = s.irqPending := rfl
@[simp] theorem State.setCassetteCounter_nmiPending (s : State) (n : Nat) : (s.setCassetteCounter n).nmiPending = s.nmiPending := rfl
@[simp] theorem State.setCassetteCounter_bpKind (s : State) (n : Nat) : (s.setCassetteCounter n).bpKind = s.bpKind := rfl
@[simp] theorem State.setCassetteCounter_bpAddr (s : State) (n : Nat) : (s.setCassetteCounter n).bpAddr = s.bpAddr := rfl
@[simp] theorem State.setCassetteCounter_bpHit (s : State) (n : Nat) : (s.setCassetteCounter n).bpHit = s.bpHit := rfl
@[simp] theorem State.setCassetteCounter_currentInstruction (s : State) (n : Nat) : (s.setCassetteCounter n).currentInstruction = s.currentInstruction := rfl
@[simp] theorem State.setCassetteCounter_ram (s : State) (n : Nat) : (s.setCassetteCounter n).ram = s.ram := rfl
@[simp] theorem State.setCassetteCounter_osRom (s : State) (n : Nat) : (s.setCassetteCounter n).osRom = s.osRom := rfl
@[simp] theorem State.setCassetteCounter_pagedRoms (s : State) (n : Nat) : (s.setCassetteCounter n).pagedRoms = s.pagedRoms := rfl
@[simp] theorem State.setCassetteCounter_page (s : State) (n : Nat) : (s.setCassetteCounter n).page = s.page := rfl
@[simp] theorem State.setCassetteCounter_sheila (s : State) (n : Nat) : (s.setCassetteCounter n).sheila = s.sheila := rfl
@[simp] theorem State.setCassetteCounter_intStatus (s : State) (n : Nat) : (s.setCassetteCounter n).intStatus = s.intStatus := rfl
@[simp] theorem State.setCassetteCounter_enableMask (s : State) (n : Nat) : (s.setCassetteCounter n).enableMask = s.enableMask := rfl
@[simp] theorem State.setCassetteCounter_scanline (s : State) (n : Nat) : (s.setCassetteCounter n).scanline = s.scanline := rfl
@[simp] theorem State.setCassetteCounter_cassetteCounter (s : State) (n : Nat) : (s.setCassetteCounter n).cassetteCounter = n := rfl
@[simp] theorem State.setCassetteCounter_dataShiftHasData (s : State) (n : Nat) : (s.setCassetteCounter n).dataShiftHasData = s.dataShiftHasData := rfl
@[simp] theorem State.setCassetteCounter_keyboard (s : State) (n : Nat) : (s.setCassetteCounter n).keyboard = s.keyboard := rfl
@[simp] theorem State.setCassetteCounter_driver (s : State) (n : Nat) : (s.setCassetteCounter n).driver = s.driver := rfl
@[simp] theorem State.setCassetteCounter_output (s : State) (n : Nat) : (s.setCassetteCounter n).output = s.output := rfl
@[simp] theorem State.setCassetteCounter_tape (s : State) (n : Nat) : (s.setCassetteCounter n).tape = s.tape := rfl
@[simp] theorem State.setCassetteCounter_calls (s : State) (n : Nat) : (s.setCassetteCounter n).calls = s.calls := rfl

@[simp] theorem State.setHasData_a (s : State) (b : Bool) : (s.setHasData b).a = s.a := rfl
@[simp] theorem State.setHasData_x (s : State) (b : Bool) : (s.setHasData b).x = s.x := rfl
@[simp] theorem State.setHasData_y (s : State) (b : Bool) : (s.setHasData b).y = s.y := rfl
@[simp] theorem State.setHasData_sp (s : State) (b : Bool) : (s.setHasData b).sp = s.sp := rfl
@[simp] theorem State.setHasData_p (s : State) (b : Bool) : (s.setHasData b).p = s.p := rfl
@[simp] theorem State.setHasData_pc (s : State) (b : Bool) : (s.setHasData b).pc = s.pc := rfl
@[simp] theorem State.setHasData_cycleTime (s : State) (b : Bool) : (s.setHasData b).cycleTime = s.cycleTime := rfl
@[simp] theorem State.setHasData_irqPending (s : State) (b : Bool) : (s.setHasData b).irqPending = s.irqPending := rfl
@[simp] theorem State.setHasData_nmiPending (s : State) (b : Bool) : (s.setHasData b).nmiPending = s.nmiPending := rfl
@[simp] theorem State.setHasData_bpKind (s : State) (b : Bool) : (s.setHasData b).bpKind = s.bpKind := rfl
@[simp] theorem State.setHasData_bpAddr (s : State) (b : Bool) : (s.setHasData b).bpAddr = s.bpAddr := rfl
@[simp] theorem State.setHasData_bpHit (s : State) (b : Bool) : (s.setHasData b).bpHit = s.bpHit := rfl
@[simp] theorem State.setHasData_currentInstruction (s : State) (b : Bool) : (s.setHasData b).currentInstruction = s.currentInstruction := rfl
@[simp] theorem State.setHasData_ram (s : State) (b : Bool) : (s.setHasData b).ram = s.ram := rfl
@[simp] theorem State.setHasData_osRom (s : State) (b : Bool) : (s.setHasData b).osRom = s.osRom := rfl
@[simp] theorem State.setHasData_pagedRoms (s : State) (b : Bool) : (s.setHasData b).pagedRoms = s.pagedRoms := rfl
@[simp] theorem State.setHasData_page (s : State) (b : Bool) : (s.setHasData b).page = s.page := rfl
@[simp] theorem State.setHasData_sheila (s : State) (b : Bool) : (s.setHasData b).sheila = s.sheila := rfl
@[simp] theorem State.setHasData_intStatus (s : State) (b : Bool) : (s.setHasData b).intStatus = s.intStatus := rfl
@[simp] theorem State.setHasData_enableMask (s : State) (b : Bool) : (s.setHasData b).enableMask = s.enableMask := rfl
@[simp] theorem State.setHasData_scanline (s : State) (b : Bool) : (s.setHasData b).scanline = s.scanline := rfl
@[simp] theorem State.setHasData_cassetteCounter (s : State) (b : Bool) : (s.setHasData b).cassetteCounter = s.cassetteCounter := rfl
@[simp] theorem State.setHasData_dataShiftHasData (s : State) (b : Bool) : (s.setHasData b).dataShiftHasData = b := rfl
@[simp] theorem State.setHasData_keyboard (s : State) (b : Bool) : (s.setHasData b).keyboard = s.keyboard := rfl
@[simp] theorem State.setHasData_driver (s : State) (b : Bool) : (s.setHasData b).driver = s.driver := rfl
@[simp] theorem State.setHasData_output (s : State) (b : Bool) : (s.setHasData b).output = s.output := rfl
@[simp] theorem State.setHasData_tape (s : State) (b : Bool) : (s.setHasData b).tape = s.tape := rfl
@[simp] theorem State.setHasData_calls (s : State) (b : Bool) : (s.setHasData b).calls = s.calls := rfl

@[simp] theorem State.setKeyboard_a (s : State) (k : Vector Byte 14) : (s.setKeyboard k).a = s.a := rfl
@[simp] theorem State.setKeyboard_x (s : State) (k : Vector Byte 14) : (s.setKeyboard k).x = s.x := rfl
@[simp] theorem State.setKeyboard_y (s : State) (k : Vector Byte 14) : (s.setKeyboard k).y = s.y := rfl
@[simp] theorem State.setKeyboard_sp (s : State) (k : Vector Byte 14) : (s.setKeyboard k).sp = s.sp := rfl
@[simp] theorem State.setKeyboard_p (s : State) (k : Vector Byte 14) : (s.setKeyboard k).p = s.p := rfl
@[simp] theorem State.setKeyboard_pc (s : State) (k : Vector Byte 14) : (s.setKeyboard k).pc = s.pc := rfl
@[simp] theorem State.setKeyboard_cycleTime (s : State) (k : Vector Byte 14) : (s.setKeyboard k).cycleTime = s.cycleTime := rfl
@[simp] theorem State.setKeyboard_irqPending (s : State) (k : Vector Byte 14) : (s.setKeyboard k).irqPending = s.irqPending := rfl
@[simp] theorem State.setKeyboard_nmiPending (s : State) (k : Vector Byte 14) : (s.setKeyboard k).nmiPending = s.nmiPending := rfl
@[simp] theorem State.setKeyboard_bpKind (s : State) (k : Vector Byte 14) : (s.setKeyboard k).bpKind = s.bpKind := rfl
@[simp] theorem State.setKeyboard_bpAddr (s : State) (k : Vector Byte 14) : (s.setKeyboard k).bpAddr = s.bpAddr := rfl
@[simp] theorem State.setKeyboard_bpHit (s : State) (k : Vector Byte 14) : (s.setKeyboard k).bpHit = s.bpHit := rfl
@[simp] theorem State.setKeyboard_currentInstruction (s : State) (k : Vector Byte 14) : (s.setKeyboard k).currentInstruction = s.currentInstruction := rfl
@[simp] theorem State.setKeyboard_ram (s : State) (k : Vector Byte 14) : (s.setKeyboard k).ram = s.ram := rfl
@[simp] theorem State.setKeyboard_osRom (s : State) (k : Vector Byte 14) : (s.setKeyboard k).osRom = s.osRom := rfl
@[simp] theorem State.setKeyboard_pagedRoms (s : State) (k : Vector Byte 14) : (s.setKeyboard k).pagedRoms = s.pagedRoms := rfl
@[simp] theorem State.setKeyboard_page (s : State) (k : Vector Byte 14) : (s.setKeyboard k).page = s.page := rfl
@[simp] theorem State.setKeyboard_sheila (s : State) (k : Vector Byte 14) : (s.setKeyboard k).sheila = s.sheila := rfl
@[simp] theorem State.setKeyboard_intStatus (s : State) (k : Vector Byte 14) : (s.setKeyboard k).intStatus = s.intStatus := rfl
@[simp] theorem State.setKeyboard_enableMask (s : State) (k : Vector Byte 14) : (s.setKeyboard k).enableMask = s.enableMask := rfl
@[simp] theorem State.setKeyboard_scanline (s : State) (k : Vector Byte 14) : (s.setKeyboard k).scanline = s.scanline := rfl
@[simp] theorem State.setKeyboard_cassetteCounter (s : State) (k : Vector Byte 14) : (s.setKeyboard k).cassetteCounter = s.cassetteCounter := rfl
@[simp] theorem State.setKeyboard_dataShiftHasData (s : State) (k : Vector Byte 14) : (s.setKeyboard k).dataShiftHasData = s.dataShiftHasData := rfl
@[simp] theorem State.setKeyboard_keyboard (s : State) (k : Vector Byte 14) : (s.setKeyboard k).keyboard = k := rfl
@[simp] theorem State.setKeyboard_driver (s : State) (k : Vector Byte 14) : (s.setKeyboard k).driver = s.driver := rfl
@[simp] theorem State.setKeyboard_output (s : State) (k : Vector Byte 14) : (s.setKeyboard k).output = s.output := rfl
@[simp] theorem State.setKeyboard_tape (s : State) (k : Vector Byte 14) : (s.setKeyboard k).tape = s.tape := rfl
@[simp] theorem State.setKeyboard_calls (s : State) (k : Vector Byte 14) : (s.setKeyboard k).calls = s.calls := rfl

@[simp] theorem State.setDriver_a (s : State) (d : DriverState) : (s.setDriver d).a = s.a := rfl
@[simp] theorem State.setDriver_x (s : State) (d : DriverState) : (s.setDriver d).x = s.x := rfl
@[simp] theorem State.setDriver_y (s : State) (d : DriverState) : (s.setDriver d).y = s.y := rfl
@[simp] theorem State.setDriver_sp (s : State) (d : DriverState) : (s.setDriver d).sp = s.sp := rfl
@[simp] theorem State.setDriver_p (s : State) (d : DriverState) : (s.setDriver d).p = s.p := rfl
@[simp] theorem State.setDriver_pc (s : State) (d : DriverState) : (s.setDriver d).pc = s.pc := rfl
@[simp] theorem State.setDriver_cycleTime (s : State) (d : DriverState) : (s.setDriver d).cycleTime = s.cycleTime := rfl
@[simp] theorem State.setDriver_irqPending (s : State) (d : DriverState) : (s.setDriver d).irqPending = s.irqPending := rfl
@[simp] theorem State.setDriver_nmiPending (s : State) (d : DriverState) : (s.setDriver d).nmiPending = s.nmiPending := rfl
@[simp] theorem State.setDriver_bpKind (s : State) (d : DriverState) : (s.setDriver d).bpKind = s.bpKind := rfl
@[simp] theorem State.setDriver_bpAddr (s : State) (d : DriverState) : (s.setDriver d).bpAddr = s.bpAddr := rfl
@[simp] theorem State.setDriver_bpHit (s : State) (d : DriverState) : (s.setDriver d).bpHit = s.bpHit := rfl
@[simp] theorem State.setDriver_currentInstruction (s : State) (d : DriverState) : (s.setDriver d).currentInstruction = s.currentInstruction := rfl
@[simp] theorem State.setDriver_ram (s : State) (d : DriverState) : (s.setDriver d).ram = s.ram := rfl
@[simp] theorem State.setDriver_osRom (s : State) (d : DriverState) : (s.setDriver d).osRom = s.osRom := rfl
@[simp] theorem State.setDriver_pagedRoms (s : State) (d : DriverState) : (s.setDriver d).pagedRoms = s.pagedRoms := rfl
@[simp] theorem State.setDriver_page (s : State) (d : DriverState) : (s.setDriver d).page = s.page := rfl
@[simp] theorem State.setDriver_sheila (s : State) (d : DriverState) : (s.setDriver d).sheila = s.sheila := rfl
@[simp] theorem State.setDriver_intStatus (s : State) (d : DriverState) : (s.setDriver d).intStatus = s.intStatus := rfl
@[simp] theorem State.setDriver_enableMask (s : State) (d : DriverState) : (s.setDriver d).enableMask = s.enableMask := rfl
@[simp] theorem State.setDriver_scanline (s : State) (d : DriverState) : (s.setDriver d).scanline = s.scanline := rfl
@[simp] theorem State.setDriver_cassetteCounter (s : State) (d : DriverState) : (s.setDriver d).cassetteCounter = s.cassetteCounter := rfl
@[simp] theorem State.setDriver_dataShiftHasData (s : State) (d : DriverState) : (s.setDriver d).dataShiftHasData = s.dataShiftHasData := rfl
@[simp] theorem State.setDriver_keyboard (s : State) (d : DriverState) : (s.setDriver d).keyboard = s.keyboard := rfl
@[simp] theorem State.setDriver_driver (s : State) (d : DriverState) : (s.setDriver d).driver = d := rfl
@[simp] theorem State.setDriver_output (s : State) (d : DriverState) : (s.setDriver d).output = s.output := rfl
@[simp] theorem State.setDriver_tape (s : State) (d : DriverState) : (s.setDriver d).tape = s.tape := rfl
@[simp] theorem State.setDriver_calls (s : State) (d : DriverState) : (s.setDriver d).calls = s.calls := rfl

@[simp] theorem State.emit_a (s : State) (e : List OutputEvent) : (s.emit e).a = s.a := rfl
@[simp] theorem State.emit_x (s : State) (e : List OutputEvent) : (s.emit e).x = s.x := rfl
@[simp] theorem State.emit_y (s : State) (e : List OutputEvent) : (s.emit e).y = s.y := rfl
@[simp] theorem State.emit_sp (s : State) (e : List OutputEvent) : (s.emit e).sp = s.sp := rfl
@[simp] theorem State.emit_p (s : State) (e : List OutputEvent) : (s.emit e).p = s.p := rfl
@[simp] theorem State.emit_pc (s : State) (e : List OutputEvent) : (s.emit e).pc = s.pc := rfl
@[simp] theorem State.emit_cycleTime (s : State) (e : List OutputEvent) : (s.emit e).cycleTime = s.cycleTime := rfl
@[simp] theorem State.emit_irqPending (s : State) (e : List OutputEvent) : (s.emit e).irqPending = s.irqPending := rfl
@[simp] theorem State.emit_nmiPending (s : State) (e : List OutputEvent) : (s.emit e).nmiPending = s.nmiPending := rfl
@[simp] theorem State.emit_bpKind (s : State) (e : List OutputEvent) : (s.emit e).bpKind = s.bpKind := rfl
@[simp] theorem State.emit_bpAddr (s : State) (e : List OutputEvent) : (s.emit e).bpAddr = s.bpAddr := rfl
@[simp] theorem State.emit_bpHit (s : State) (e : List OutputEvent) : (s.emit e).bpHit = s.bpHit := rfl
@[simp] theorem State.emit_currentInstruction (s : State) (e : List OutputEvent) : (s.emit e).currentInstruction = s.currentInstruction := rfl
@[simp] theorem State.emit_ram (s : State) (e : List OutputEvent) : (s.emit e).ram = s.ram := rfl
@[simp] theorem State.emit_osRom (s : State) (e : List OutputEvent) : (s.emit e).osRom = s.osRom := rfl
@[simp] theorem State.emit_pagedRoms (s : State) (e : List OutputEvent) : (s.emit e).pagedRoms = s.pagedRoms := rfl
@[simp] theorem State.emit_page (s : State) (e : List OutputEvent) : (s.emit e).page = s.page := rfl
@[simp] theorem State.emit_sheila (s : State) (e : List OutputEvent) : (s.emit e).sheila = s.sheila := rfl
@[simp] theorem State.emit_intStatus (s : State) (e : List OutputEvent) : (s.emit e).intStatus = s.intStatus := rfl
@[simp] theorem State.emit_enableMask (s : State) (e : List OutputEvent) : (s.emit e).enableMask = s.enableMask := rfl
@[simp] theorem State.emit_scanline (s : State) (e : List OutputEvent) : (s.emit e).scanline = s.scanline := rfl
@[simp] theorem State.emit_cassetteCounter (s : State) (e : List OutputEvent) : (s.emit e).cassetteCounter = s.cassetteCounter := rfl
@[simp] theorem State.emit_dataShiftHasData (s : State) (e : List OutputEvent) : (s.emit e).dataShiftHasData = s.dataShiftHasData := rfl
@[simp] theorem State.emit_keyboard (s : State) (e : List OutputEvent) : (s.emit e).keyboard = s.keyboard := rfl
@[simp] theorem State.emit_driver (s : State) (e : List OutputEvent) : (s.emit e).driver = s.driver := rfl
@[simp] theorem State.emit_output (s : State) (e : List OutputEvent) : (s.emit e).output = s.output ++ e := rfl
@[simp] theorem State.emit_tape (s : State) (e : List OutputEvent) : (s.emit e).tape = s.tape := rfl
@[simp] theorem State.emit_calls (s : State) (e : List OutputEvent) : (s.emit e).calls = s.calls := rfl

@[simp] theorem State.setTape_a (s : State) (t : List TapeAnswer) : (s.setTape t).a = s.a := rfl
@[simp] theorem State.setTape_x (s : State) (t : List TapeAnswer) : (s.setTape t).x = s.x := rfl
@[simp] theorem State.setTape_y (s : State) (t : List TapeAnswer) : (s.setTape t).y = s.y := rfl
@[simp] theorem State.setTape_sp (s : State) (t : List TapeAnswer) : (s.setTape t).sp = s.sp := rfl
@[simp] theorem State.setTape_p (s : State) (t : List TapeAnswer) : (s.setTape t).p = s.p := rfl
@[simp] theorem State.setTape_pc (s : State) (t : List TapeAnswer) : (s.setTape t).pc = s.pc := rfl
@[simp] theorem State.setTape_cycleTime (s : State) (t : List TapeAnswer) : (s.setTape t).cycleTime = s.cycleTime := rfl
@[simp] theorem State.setTape_irqPending (s : State) (t : List TapeAnswer) : (s.setTape t).irqPending = s.irqPending := rfl
@[simp] theorem State.setTape_nmiPending (s : State) (t : List TapeAnswer) : (s.setTape t).nmiPending = s.nmiPending := rfl
@[simp] theorem State.setTape_bpKind (s : State) (t : List TapeAnswer) : (s.setTape t).bpKind = s.bpKind := rfl
@[simp] theorem State.setTape_bpAddr (s : State) (t : List TapeAnswer) : (s.setTape t).bpAddr = s.bpAddr := rfl
@[simp] theorem State.setTape_bpHit (s : State) (t : List TapeAnswer) : (s.setTape t).bpHit = s.bpHit := rfl
@[simp] theorem State.setTape_currentInstruction (s : State) (t : List TapeAnswer) : (s.setTape t).currentInstruction = s.currentInstruction := rfl
@[simp] theorem State.setTape_ram (s : State) (t : List TapeAnswer) : (s.setTape t).ram = s.ram := rfl
@[simp] theorem State.setTape_osRom (s : State) (t : List TapeAnswer) : (s.setTape t).osRom = s.osRom := rfl
@[simp] theorem State.setTape_pagedRoms (s : State) (t : List TapeAnswer) : (s.setTape t).pagedRoms = s.pagedRoms := rfl
@[simp] theorem State.setTape_page (s : State) (t : List TapeAnswer) : (s.setTape t).page = s.page := rfl
@[simp] theorem State.setTape_sheila (s : State) (t : List TapeAnswer) : (s.setTape t).sheila = s.sheila := rfl
@[simp] theorem State.setTape_intStatus (s : State) (t : List TapeAnswer) : (s.setTape t).intStatus = s.intStatus := rfl
@[simp] theorem State.setTape_enableMask (s : State) (t : List TapeAnswer) : (s.setTape t).enableMask = s.enableMask := rfl
@[simp] theorem State.setTape_scanline (s : State) (t : List TapeAnswer) : (s.setTape t).scanline = s.scanline := rfl
@[simp] theorem State.setTape_cassetteCounter (s : State) (t : List TapeAnswer) : (s.setTape t).cassetteCounter = s.cassetteCounter := rfl
@[simp] theorem State.setTape_dataShiftHasData (s : State) (t : List TapeAnswer) : (s.setTape t).dataShiftHasData = s.dataShiftHasData := rfl
@[simp] theorem State.setTape_keyboard (s : State) (t : List TapeAnswer) : (s.setTape t).keyboard = s.keyboard := rfl
@[simp] theorem State.setTape_driver (s : State) (t : List TapeAnswer) : (s.setTape t).driver = s.driver := rfl
@[simp] theorem State.setTape_output (s : State) (t : List TapeAnswer) : (s.setTape t).output = s.output := rfl
@[simp] theorem State.setTape_tape (s : State) (t : List TapeAnswer) : (s.setTape t).tape = t := rfl
@[simp] theorem State.setTape_calls (s : State) (t : List TapeAnswer) : (s.setTape t).calls = s.calls := rfl

@[simp] theorem State.setCalls_a (s : State) (c : List HostCall) : (s.setCalls c).a = s.a := rfl
@[simp] theorem State.setCalls_x (s : State) (c : List HostCall) : (s.setCalls c).x = s.x := rfl
@[simp] theorem State.setCalls_y (s : State) (c : List HostCall) : (s.setCalls c).y = s.y := rfl
@[simp] theorem State.setCalls_sp (s : State) (c : List HostCall) : (s.setCalls c).sp = s.sp := rfl
@[simp] theorem State.setCalls_p (s : State) (c : List HostCall) : (s.setCalls c).p = s.p := rfl
@[simp] theorem State.setCalls_pc (s : State) (c : List HostCall) : (s.setCalls c).pc = s.pc := rfl
@[simp] theorem State.setCalls_cycleTime (s : State) (c : List HostCall) : (s.setCalls c).cycleTime = s.cycleTime := rfl
@[simp] theorem State.setCalls_irqPending (s : State) (c : List HostCall) : (s.setCalls c).irqPending = s.irqPending := rfl
@[simp] theorem State.setCalls_nmiPending (s : State) (c : List HostCall) : (s.setCalls c).nmiPending = s.nmiPending := rfl
@[simp] theorem State.setCalls_bpKind (s : State) (c : List HostCall) : (s.setCalls c).bpKind = s.bpKind := rfl
@[simp] theorem State.setCalls_bpAddr (s : State) (c : List HostCall) : (s.setCalls c).bpAddr = s.bpAddr := rfl
@[simp] theorem State.setCalls_bpHit (s : State) (c : List HostCall) : (s.setCalls c).bpHit = s.bpHit := rfl
@[simp] theorem State.setCalls_currentInstruction (s : State) (c : List HostCall) : (s.setCalls c).currentInstruction = s.currentInstruction := rfl
@[simp] theorem State.setCalls_ram (s : State) (c : List HostCall) : (s.setCalls c).ram = s.ram := rfl
@[simp] theorem State.setCalls_osRom (s : State) (c : List HostCall) : (s.setCalls c).osRom = s.osRom := rfl
@[simp] theorem State.setCalls_pagedRoms (s : State) (c : List HostCall) : (s.setCalls c).pagedRoms = s.pagedRoms := rfl
@[simp] theorem State.setCalls_page (s : State) (c : List HostCall) : (s.setCalls c).page = s.page := rfl
@[simp] theorem State.setCalls_sheila (s : State) (c : List HostCall) : (s.setCalls c).sheila = s.sheila := rfl
@[simp] theorem State.setCalls_intStatus (s : State) (c : List HostCall) : (s.setCalls c).intStatus = s.intStatus := rfl
@[simp] theorem State.setCalls_enableMask (s : State) (c : List HostCall) : (s.setCalls c).enableMask = s.enableMask := rfl
@[simp] theorem State.setCalls_scanline (s : State) (c : List HostCall) : (s.setCalls c).scanline = s.scanline := rfl
@[simp] theorem State.setCalls_cassetteCounter (s : State) (c : List HostCall) : (s.setCalls c).cassetteCounter = s.cassetteCounter := rfl
@[simp] theorem State.setCalls_dataShiftHasData (s : State) (c : List HostCall) : (s.setCalls c).dataShiftHasData = s.dataShiftHasData := rfl
@[simp] theorem State.setCalls_keyboard (s : State) (c : List HostCall) : (s.setCalls c).keyboard = s.keyboard := rfl
@[simp] theorem State.setCalls_driver (s : State) (c : List HostCall) : (s.setCalls c).driver = s.driver := rfl
@[simp] theorem State.setCalls_output (s : State) (c : List HostCall) : (s.setCalls c).output = s.output := rfl
@[simp] theorem State.setCalls_tape (s : State) (c : List HostCall) : (s.setCalls c).tape = s.tape := rfl
@[simp] theorem State.setCalls_calls (s : State) (c : List HostCall) : (s.setCalls c).calls = c := rfl

end Sys2Proof.Machine
end

