-- ==== Sys2Proof/Laws/Frame.lean ====
section
/-! SUPPORT. Which fields each shared operation leaves alone: one lemma for each field it keeps. -/

namespace Sys2Proof.Machine

@[simp] theorem ulaReadEffect_a (off : Fin 16) (s : State) : (ulaReadEffect off s).a = s.a := by
  unfold ulaReadEffect putStatus updateIrq; split <;> (try split) <;> rfl
@[simp] theorem ulaReadEffect_x (off : Fin 16) (s : State) : (ulaReadEffect off s).x = s.x := by
  unfold ulaReadEffect putStatus updateIrq; split <;> (try split) <;> rfl
@[simp] theorem ulaReadEffect_y (off : Fin 16) (s : State) : (ulaReadEffect off s).y = s.y := by
  unfold ulaReadEffect putStatus updateIrq; split <;> (try split) <;> rfl
@[simp] theorem ulaReadEffect_sp (off : Fin 16) (s : State) : (ulaReadEffect off s).sp = s.sp := by
  unfold ulaReadEffect putStatus updateIrq; split <;> (try split) <;> rfl
@[simp] theorem ulaReadEffect_p (off : Fin 16) (s : State) : (ulaReadEffect off s).p = s.p := by
  unfold ulaReadEffect putStatus updateIrq; split <;> (try split) <;> rfl
@[simp] theorem ulaReadEffect_pc (off : Fin 16) (s : State) : (ulaReadEffect off s).pc = s.pc := by
  unfold ulaReadEffect putStatus updateIrq; split <;> (try split) <;> rfl
@[simp] theorem ulaReadEffect_cycleTime (off : Fin 16) (s : State) : (ulaReadEffect off s).cycleTime = s.cycleTime := by
  unfold ulaReadEffect putStatus updateIrq; split <;> (try split) <;> rfl
@[simp] theorem ulaReadEffect_nmiPending (off : Fin 16) (s : State) : (ulaReadEffect off s).nmiPending = s.nmiPending := by
  unfold ulaReadEffect putStatus updateIrq; split <;> (try split) <;> rfl
@[simp] theorem ulaReadEffect_bpKind (off : Fin 16) (s : State) : (ulaReadEffect off s).bpKind = s.bpKind := by
  unfold ulaReadEffect putStatus updateIrq; split <;> (try split) <;> rfl
@[simp] theorem ulaReadEffect_bpAddr (off : Fin 16) (s : State) : (ulaReadEffect off s).bpAddr = s.bpAddr := by
  unfold ulaReadEffect putStatus updateIrq; split <;> (try split) <;> rfl
@[simp] theorem ulaReadEffect_bpHit (off : Fin 16) (s : State) : (ulaReadEffect off s).bpHit = s.bpHit := by
  unfold ulaReadEffect putStatus updateIrq; split <;> (try split) <;> rfl
@[simp] theorem ulaReadEffect_currentInstruction (off : Fin 16) (s : State) : (ulaReadEffect off s).currentInstruction = s.currentInstruction := by
  unfold ulaReadEffect putStatus updateIrq; split <;> (try split) <;> rfl
@[simp] theorem ulaReadEffect_ram (off : Fin 16) (s : State) : (ulaReadEffect off s).ram = s.ram := by
  unfold ulaReadEffect putStatus updateIrq; split <;> (try split) <;> rfl
@[simp] theorem ulaReadEffect_osRom (off : Fin 16) (s : State) : (ulaReadEffect off s).osRom = s.osRom := by
  unfold ulaReadEffect putStatus updateIrq; split <;> (try split) <;> rfl
@[simp] theorem ulaReadEffect_pagedRoms (off : Fin 16) (s : State) : (ulaReadEffect off s).pagedRoms = s.pagedRoms := by
  unfold ulaReadEffect putStatus updateIrq; split <;> (try split) <;> rfl
@[simp] theorem ulaReadEffect_page (off : Fin 16) (s : State) : (ulaReadEffect off s).page = s.page := by
  unfold ulaReadEffect putStatus updateIrq; split <;> (try split) <;> rfl
@[simp] theorem ulaReadEffect_sheila (off : Fin 16) (s : State) : (ulaReadEffect off s).sheila = s.sheila := by
  unfold ulaReadEffect putStatus updateIrq; split <;> (try split) <;> rfl
@[simp] theorem ulaReadEffect_enableMask (off : Fin 16) (s : State) : (ulaReadEffect off s).enableMask = s.enableMask := by
  unfold ulaReadEffect putStatus updateIrq; split <;> (try split) <;> rfl
@[simp] theorem ulaReadEffect_scanline (off : Fin 16) (s : State) : (ulaReadEffect off s).scanline = s.scanline := by
  unfold ulaReadEffect putStatus updateIrq; split <;> (try split) <;> rfl
@[simp] theorem ulaReadEffect_cassetteCounter (off : Fin 16) (s : State) : (ulaReadEffect off s).cassetteCounter = s.cassetteCounter := by
  unfold ulaReadEffect putStatus updateIrq; split <;> (try split) <;> rfl
@[simp] theorem ulaReadEffect_dataShiftHasData (off : Fin 16) (s : State) : (ulaReadEffect off s).dataShiftHasData = s.dataShiftHasData := by
  unfold ulaReadEffect putStatus updateIrq; split <;> (try split) <;> rfl
@[simp] theorem ulaReadEffect_keyboard (off : Fin 16) (s : State) : (ulaReadEffect off s).keyboard = s.keyboard := by
  unfold ulaReadEffect putStatus updateIrq; split <;> (try split) <;> rfl
@[simp] theorem ulaReadEffect_driver (off : Fin 16) (s : State) : (ulaReadEffect off s).driver = s.driver := by
  unfold ulaReadEffect putStatus updateIrq; split <;> (try split) <;> rfl
@[simp] theorem ulaReadEffect_output (off : Fin 16) (s : State) : (ulaReadEffect off s).output = s.output := by
  unfold ulaReadEffect putStatus updateIrq; split <;> (try split) <;> rfl
@[simp] theorem ulaReadEffect_tape (off : Fin 16) (s : State) : (ulaReadEffect off s).tape = s.tape := by
  unfold ulaReadEffect putStatus updateIrq; split <;> (try split) <;> rfl
@[simp] theorem ulaReadEffect_calls (off : Fin 16) (s : State) : (ulaReadEffect off s).calls = s.calls := by
  unfold ulaReadEffect putStatus updateIrq; split <;> (try split) <;> rfl

@[simp] theorem readEffect_a (a : Word) (s : State) : (readEffect a s).a = s.a := by
  unfold readEffect; split <;> simp
@[simp] theorem readEffect_x (a : Word) (s : State) : (readEffect a s).x = s.x := by
  unfold readEffect; split <;> simp
@[simp] theorem readEffect_y (a : Word) (s : State) : (readEffect a s).y = s.y := by
  unfold readEffect; split <;> simp
@[simp] theorem readEffect_sp (a : Word) (s : State) : (readEffect a s).sp = s.sp := by
  unfold readEffect; split <;> simp
@[simp] theorem readEffect_p (a : Word) (s : State) : (readEffect a s).p = s.p := by
  unfold readEffect; split <;> simp
@[simp] theorem readEffect_pc (a : Word) (s : State) : (readEffect a s).pc = s.pc := by
  unfold readEffect; split <;> simp
@[simp] theorem readEffect_cycleTime (a : Word) (s : State) : (readEffect a s).cycleTime = s.cycleTime := by
  unfold readEffect; split <;> simp
@[simp] theorem readEffect_nmiPending (a : Word) (s : State) : (readEffect a s).nmiPending = s.nmiPending := by
  unfold readEffect; split <;> simp
@[simp] theorem readEffect_bpKind (a : Word) (s : State) : (readEffect a s).bpKind = s.bpKind := by
  unfold readEffect; split <;> simp
@[simp] theorem readEffect_bpAddr (a : Word) (s : State) : (readEffect a s).bpAddr = s.bpAddr := by
  unfold readEffect; split <;> simp
@[simp] theorem readEffect_bpHit (a : Word) (s : State) : (readEffect a s).bpHit = s.bpHit := by
  unfold readEffect; split <;> simp
@[simp] theorem readEffect_currentInstruction (a : Word) (s : State) : (readEffect a s).currentInstruction = s.currentInstruction := by
  unfold readEffect; split <;> simp
@[simp] theorem readEffect_ram (a : Word) (s : State) : (readEffect a s).ram = s.ram := by
  unfold readEffect; split <;> simp
@[simp] theorem readEffect_osRom (a : Word) (s : State) : (readEffect a s).osRom = s.osRom := by
  unfold readEffect; split <;> simp
@[simp] theorem readEffect_pagedRoms (a : Word) (s : State) : (readEffect a s).pagedRoms = s.pagedRoms := by
  unfold readEffect; split <;> simp
@[simp] theorem readEffect_page (a : Word) (s : State) : (readEffect a s).page = s.page := by
  unfold readEffect; split <;> simp
@[simp] theorem readEffect_sheila (a : Word) (s : State) : (readEffect a s).sheila = s.sheila := by
  unfold readEffect; split <;> simp
@[simp] theorem readEffect_enableMask (a : Word) (s : State) : (readEffect a s).enableMask = s.enableMask := by
  unfold readEffect; split <;> simp
@[simp] theorem readEffect_scanline (a : Word) (s : State) : (readEffect a s).scanline = s.scanline := by
  unfold readEffect; split <;> simp
@[simp] theorem readEffect_cassetteCounter (a : Word) (s : State) : (readEffect a s).cassetteCounter = s.cassetteCounter := by
  unfold readEffect; split <;> simp
@[simp] theorem readEffect_dataShiftHasData (a : Word) (s : State) : (readEffect a s).dataShiftHasData = s.dataShiftHasData := by
  unfold readEffect; split <;> simp
@[simp] theorem readEffect_keyboard (a : Word) (s : State) : (readEffect a s).keyboard = s.keyboard := by
  unfold readEffect; split <;> simp
@[simp] theorem readEffect_driver (a : Word) (s : State) : (readEffect a s).driver = s.driver := by
  unfold readEffect; split <;> simp
@[simp] theorem readEffect_output (a : Word) (s : State) : (readEffect a s).output = s.output := by
  unfold readEffect; split <;> simp
@[simp] theorem readEffect_tape (a : Word) (s : State) : (readEffect a s).tape = s.tape := by
  unfold readEffect; split <;> simp
@[simp] theorem readEffect_calls (a : Word) (s : State) : (readEffect a s).calls = s.calls := by
  unfold readEffect; split <;> simp

@[simp] theorem checkBreakpoint_a (k : BreakpointKind) (a : Word) (s : State) : (checkBreakpoint k a s).a = s.a := by
  unfold checkBreakpoint; split <;> rfl
@[simp] theorem checkBreakpoint_x (k : BreakpointKind) (a : Word) (s : State) : (checkBreakpoint k a s).x = s.x := by
  unfold checkBreakpoint; split <;> rfl
@[simp] theorem checkBreakpoint_y (k : BreakpointKind) (a : Word) (s : State) : (checkBreakpoint k a s).y = s.y := by
  unfold checkBreakpoint; split <;> rfl
@[simp] theorem checkBreakpoint_sp (k : BreakpointKind) (a : Word) (s : State) : (checkBreakpoint k a s).sp = s.sp := by
  unfold checkBreakpoint; split <;> rfl
@[simp] theorem checkBreakpoint_p (k : BreakpointKind) (a : Word) (s : State) : (checkBreakpoint k a s).p = s.p := by
  unfold checkBreakpoint; split <;> rfl
@[simp] theorem checkBreakpoint_pc (k : BreakpointKind) (a : Word) (s : State) : (checkBreakpoint k a s).pc = s.pc := by
  unfold checkBreakpoint; split <;> rfl
@[simp] theorem checkBreakpoint_cycleTime (k : BreakpointKind) (a : Word) (s : State) : (checkBreakpoint k a s).cycleTime = s.cycleTime := by
  unfold checkBreakpoint; split <;> rfl
@[simp] theorem checkBreakpoint_irqPending (k : BreakpointKind) (a : Word) (s : State) : (checkBreakpoint k a s).irqPending = s.irqPending := by
  unfold checkBreakpoint; split <;> rfl
@[simp] theorem checkBreakpoint_nmiPending (k : BreakpointKind) (a : Word) (s : State) : (checkBreakpoint k a s).nmiPending = s.nmiPending := by
  unfold checkBreakpoint; split <;> rfl
@[simp] theorem checkBreakpoint_bpKind (k : BreakpointKind) (a : Word) (s : State) : (checkBreakpoint k a s).bpKind = s.bpKind := by
  unfold checkBreakpoint; split <;> rfl
@[simp] theorem checkBreakpoint_bpAddr (k : BreakpointKind) (a : Word) (s : State) : (checkBreakpoint k a s).bpAddr = s.bpAddr := by
  unfold checkBreakpoint; split <;> rfl
@[simp] theorem checkBreakpoint_currentInstruction (k : BreakpointKind) (a : Word) (s : State) : (checkBreakpoint k a s).currentInstruction = s.currentInstruction := by
  unfold checkBreakpoint; split <;> rfl
@[simp] theorem checkBreakpoint_ram (k : BreakpointKind) (a : Word) (s : State) : (checkBreakpoint k a s).ram = s.ram := by
  unfold checkBreakpoint; split <;> rfl
@[simp] theorem checkBreakpoint_osRom (k : BreakpointKind) (a : Word) (s : State) : (checkBreakpoint k a s).osRom = s.osRom := by
  unfold checkBreakpoint; split <;> rfl
@[simp] theorem checkBreakpoint_pagedRoms (k : BreakpointKind) (a : Word) (s : State) : (checkBreakpoint k a s).pagedRoms = s.pagedRoms := by
  unfold checkBreakpoint; split <;> rfl
@[simp] theorem checkBreakpoint_page (k : BreakpointKind) (a : Word) (s : State) : (checkBreakpoint k a s).page = s.page := by
  unfold checkBreakpoint; split <;> rfl
@[simp] theorem checkBreakpoint_sheila (k : BreakpointKind) (a : Word) (s : State) : (checkBreakpoint k a s).sheila = s.sheila := by
  unfold checkBreakpoint; split <;> rfl
@[simp] theorem checkBreakpoint_intStatus (k : BreakpointKind) (a : Word) (s : State) : (checkBreakpoint k a s).intStatus = s.intStatus := by
  unfold checkBreakpoint; split <;> rfl
@[simp] theorem checkBreakpoint_enableMask (k : BreakpointKind) (a : Word) (s : State) : (checkBreakpoint k a s).enableMask = s.enableMask := by
  unfold checkBreakpoint; split <;> rfl
@[simp] theorem checkBreakpoint_scanline (k : BreakpointKind) (a : Word) (s : State) : (checkBreakpoint k a s).scanline = s.scanline := by
  unfold checkBreakpoint; split <;> rfl
@[simp] theorem checkBreakpoint_cassetteCounter (k : BreakpointKind) (a : Word) (s : State) : (checkBreakpoint k a s).cassetteCounter = s.cassetteCounter := by
  unfold checkBreakpoint; split <;> rfl
@[simp] theorem checkBreakpoint_dataShiftHasData (k : BreakpointKind) (a : Word) (s : State) : (checkBreakpoint k a s).dataShiftHasData = s.dataShiftHasData := by
  unfold checkBreakpoint; split <;> rfl
@[simp] theorem checkBreakpoint_keyboard (k : BreakpointKind) (a : Word) (s : State) : (checkBreakpoint k a s).keyboard = s.keyboard := by
  unfold checkBreakpoint; split <;> rfl
@[simp] theorem checkBreakpoint_driver (k : BreakpointKind) (a : Word) (s : State) : (checkBreakpoint k a s).driver = s.driver := by
  unfold checkBreakpoint; split <;> rfl
@[simp] theorem checkBreakpoint_output (k : BreakpointKind) (a : Word) (s : State) : (checkBreakpoint k a s).output = s.output := by
  unfold checkBreakpoint; split <;> rfl
@[simp] theorem checkBreakpoint_tape (k : BreakpointKind) (a : Word) (s : State) : (checkBreakpoint k a s).tape = s.tape := by
  unfold checkBreakpoint; split <;> rfl
@[simp] theorem checkBreakpoint_calls (k : BreakpointKind) (a : Word) (s : State) : (checkBreakpoint k a s).calls = s.calls := by
  unfold checkBreakpoint; split <;> rfl

@[simp] theorem read_a (a : Word) (s : State) : ((read a s).2).a = s.a := by
  simp [read, machineRead]
@[simp] theorem read_x (a : Word) (s : State) : ((read a s).2).x = s.x := by
  simp [read, machineRead]
@[simp] theorem read_y (a : Word) (s : State) : ((read a s).2).y = s.y := by
  simp [read, machineRead]
@[simp] theorem read_sp (a : Word) (s : State) : ((read a s).2).sp = s.sp := by
  simp [read, machineRead]
@[simp] theorem read_p (a : Word) (s : State) : ((read a s).2).p = s.p := by
  simp [read, machineRead]
@[simp] theorem read_pc (a : Word) (s : State) : ((read a s).2).pc = s.pc := by
  simp [read, machineRead]
@[simp] theorem read_cycleTime (a : Word) (s : State) : ((read a s).2).cycleTime = s.cycleTime := by
  simp [read, machineRead]
@[simp] theorem read_nmiPending (a : Word) (s : State) : ((read a s).2).nmiPending = s.nmiPending := by
  simp [read, machineRead]
@[simp] theorem read_bpKind (a : Word) (s : State) : ((read a s).2).bpKind = s.bpKind := by
  simp [read, machineRead]
@[simp] theorem read_bpAddr (a : Word) (s : State) : ((read a s).2).bpAddr = s.bpAddr := by
  simp [read, machineRead]
@[simp] theorem read_currentInstruction (a : Word) (s : State) : ((read a s).2).currentInstruction = s.currentInstruction := by
  simp [read, machineRead]
@[simp] theorem read_ram (a : Word) (s : State) : ((read a s).2).ram = s.ram := by
  simp [read, machineRead]
@[simp] theorem read_osRom (a : Word) (s : State) : ((read a s).2).osRom = s.osRom := by
  simp [read, machineRead]
@[simp] theorem read_pagedRoms (a : Word) (s : State) : ((read a s).2).pagedRoms = s.pagedRoms := by
  simp [read, machineRead]
@[simp] theorem read_page (a : Word) (s : State) : ((read a s).2).page = s.page := by
  simp [read, machineRead]
@[simp] theorem read_sheila (a : Word) (s : State) : ((read a s).2).sheila = s.sheila := by
  simp [read, machineRead]
@[simp] theorem read_enableMask (a : Word) (s : State) : ((read a s).2).enableMask = s.enableMask := by
  simp [read, machineRead]
@[simp] theorem read_scanline (a : Word) (s : State) : ((read a s).2).scanline = s.scanline := by
  simp [read, machineRead]
@[simp] theorem read_cassetteCounter (a : Word) (s : State) : ((read a s).2).cassetteCounter = s.cassetteCounter := by
  simp [read, machineRead]
@[simp] theorem read_dataShiftHasData (a : Word) (s : State) : ((read a s).2).dataShiftHasData = s.dataShiftHasData := by
  simp [read, machineRead]
@[simp] theorem read_keyboard (a : Word) (s : State) : ((read a s).2).keyboard = s.keyboard := by
  simp [read, machineRead]
@[simp] theorem read_driver (a : Word) (s : State) : ((read a s).2).driver = s.driver := by
  simp [read, machineRead]
@[simp] theorem read_output (a : Word) (s : State) : ((read a s).2).output = s.output := by
  simp [read, machineRead]
@[simp] theorem read_tape (a : Word) (s : State) : ((read a s).2).tape = s.tape := by
  simp [read, machineRead]
@[simp] theorem read_calls (a : Word) (s : State) : ((read a s).2).calls = s.calls := by
  simp [read, machineRead]

@[simp] theorem readPair_a (lo hi : Word) (s : State) : ((readPair lo hi s).2).a = s.a := by
  simp [readPair]
@[simp] theorem readPair_x (lo hi : Word) (s : State) : ((readPair lo hi s).2).x = s.x := by
  simp [readPair]
@[simp] theorem readPair_y (lo hi : Word) (s : State) : ((readPair lo hi s).2).y = s.y := by
  simp [readPair]
@[simp] theorem readPair_sp (lo hi : Word) (s : State) : ((readPair lo hi s).2).sp = s.sp := by
  simp [readPair]
@[simp] theorem readPair_p (lo hi : Word) (s : State) : ((readPair lo hi s).2).p = s.p := by
  simp [readPair]
@[simp] theorem readPair_pc (lo hi : Word) (s : State) : ((readPair lo hi s).2).pc = s.pc := by
  simp [readPair]
@[simp] theorem readPair_cycleTime (lo hi : Word) (s : State) : ((readPair lo hi s).2).cycleTime = s.cycleTime := by
  simp [readPair]
@[simp] theorem readPair_nmiPending (lo hi : Word) (s : State) : ((readPair lo hi s).2).nmiPending = s.nmiPending := by
  simp [readPair]
@[simp] theorem readPair_bpKind (lo hi : Word) (s : State) : ((readPair lo hi s).2).bpKind = s.bpKind := by
  simp [readPair]
@[simp] theorem readPair_bpAddr (lo hi : Word) (s : State) : ((readPair lo hi s).2).bpAddr = s.bpAddr := by
  simp [readPair]
@[simp] theorem readPair_currentInstruction (lo hi : Word) (s : State) : ((readPair lo hi s).2).currentInstruction = s.currentInstruction := by
  simp [readPair]
@[simp] theorem readPair_ram (lo hi : Word) (s : State) : ((readPair lo hi s).2).ram = s.ram := by
  simp [readPair]
@[simp] theorem readPair_osRom (lo hi : Word) (s : State) : ((readPair lo hi s).2).osRom = s.osRom := by
  simp [readPair]
@[simp] theorem readPair_pagedRoms (lo hi : Word) (s : State) : ((readPair lo hi s).2).pagedRoms = s.pagedRoms := by
  simp [readPair]
@[simp] theorem readPair_page (lo hi : Word) (s : State) : ((readPair lo hi s).2).page = s.page := by
  simp [readPair]
@[simp] theorem readPair_sheila (lo hi : Word) (s : State) : ((readPair lo hi s).2).sheila = s.sheila := by
  simp [readPair]
@[simp] theorem readPair_enableMask (lo hi : Word) (s : State) : ((readPair lo hi s).2).enableMask = s.enableMask := by
  simp [readPair]
@[simp] theorem readPair_scanline (lo hi : Word) (s : State) : ((readPair lo hi s).2).scanline = s.scanline := by
  simp [readPair]
@[simp] theorem readPair_cassetteCounter (lo hi : Word) (s : State) : ((readPair lo hi s).2).cassetteCounter = s.cassetteCounter := by
  simp [readPair]
@[simp] theorem readPair_dataShiftHasData (lo hi : Word) (s : State) : ((readPair lo hi s).2).dataShiftHasData = s.dataShiftHasData := by
  simp [readPair]
@[simp] theorem readPair_keyboard (lo hi : Word) (s : State) : ((readPair lo hi s).2).keyboard = s.keyboard := by
  simp [readPair]
@[simp] theorem readPair_driver (lo hi : Word) (s : State) : ((readPair lo hi s).2).driver = s.driver := by
  simp [readPair]
@[simp] theorem readPair_output (lo hi : Word) (s : State) : ((readPair lo hi s).2).output = s.output := by
  simp [readPair]
@[simp] theorem readPair_tape (lo hi : Word) (s : State) : ((readPair lo hi s).2).tape = s.tape := by
  simp [readPair]
@[simp] theorem readPair_calls (lo hi : Word) (s : State) : ((readPair lo hi s).2).calls = s.calls := by
  simp [readPair]

@[simp] theorem read16_a (a : Word) (s : State) : ((read16 a s).2).a = s.a := by
  simp [read16]
@[simp] theorem read16_x (a : Word) (s : State) : ((read16 a s).2).x = s.x := by
  simp [read16]
@[simp] theorem read16_y (a : Word) (s : State) : ((read16 a s).2).y = s.y := by
  simp [read16]
@[simp] theorem read16_sp (a : Word) (s : State) : ((read16 a s).2).sp = s.sp := by
  simp [read16]
@[simp] theorem read16_p (a : Word) (s : State) : ((read16 a s).2).p = s.p := by
  simp [read16]
@[simp] theorem read16_pc (a : Word) (s : State) : ((read16 a s).2).pc = s.pc := by
  simp [read16]
@[simp] theorem read16_cycleTime (a : Word) (s : State) : ((read16 a s).2).cycleTime = s.cycleTime := by
  simp [read16]
@[simp] theorem read16_nmiPending (a : Word) (s : State) : ((read16 a s).2).nmiPending = s.nmiPending := by
  simp [read16]
@[simp] theorem read16_bpKind (a : Word) (s : State) : ((read16 a s).2).bpKind = s.bpKind := by
  simp [read16]
@[simp] theorem read16_bpAddr (a : Word) (s : State) : ((read16 a s).2).bpAddr = s.bpAddr := by
  simp [read16]
@[simp] theorem read16_currentInstruction (a : Word) (s : State) : ((read16 a s).2).currentInstruction = s.currentInstruction := by
  simp [read16]
@[simp] theorem read16_ram (a : Word) (s : State) : ((read16 a s).2).ram = s.ram := by
  simp [read16]
@[simp] theorem read16_osRom (a : Word) (s : State) : ((read16 a s).2).osRom = s.osRom := by
  simp [read16]
@[simp] theorem read16_pagedRoms (a : Word) (s : State) : ((read16 a s).2).pagedRoms = s.pagedRoms := by
  simp [read16]
@[simp] theorem read16_page (a : Word) (s : State) : ((read16 a s).2).page = s.page := by
  simp [read16]
@[simp] theorem read16_sheila (a : Word) (s : State) : ((read16 a s).2).sheila = s.sheila := by
  simp [read16]
@[simp] theorem read16_enableMask (a : Word) (s : State) : ((read16 a s).2).enableMask = s.enableMask := by
  simp [read16]
@[simp] theorem read16_scanline (a : Word) (s : State) : ((read16 a s).2).scanline = s.scanline := by
  simp [read16]
@[simp] theorem read16_cassetteCounter (a : Word) (s : State) : ((read16 a s).2).cassetteCounter = s.cassetteCounter := by
  simp [read16]
@[simp] theorem read16_dataShiftHasData (a : Word) (s : State) : ((read16 a s).2).dataShiftHasData = s.dataShiftHasData := by
  simp [read16]
@[simp] theorem read16_keyboard (a : Word) (s : State) : ((read16 a s).2).keyboard = s.keyboard := by
  simp [read16]
@[simp] theorem read16_driver (a : Word) (s : State) : ((read16 a s).2).driver = s.driver := by
  simp [read16]
@[simp] theorem read16_output (a : Word) (s : State) : ((read16 a s).2).output = s.output := by
  simp [read16]
@[simp] theorem read16_tape (a : Word) (s : State) : ((read16 a s).2).tape = s.tape := by
  simp [read16]
@[simp] theorem read16_calls (a : Word) (s : State) : ((read16 a s).2).calls = s.calls := by
  simp [read16]

@[simp] theorem updateIrq_a (s : State) : (updateIrq s).a = s.a := by
  rfl
@[simp] theorem updateIrq_x (s : State) : (updateIrq s).x = s.x := by
  rfl
@[simp] theorem updateIrq_y (s : State) : (updateIrq s).y = s.y := by
  rfl
@[simp] theorem updateIrq_sp (s : State) : (updateIrq s).sp = s.sp := by
  rfl
@[simp] theorem updateIrq_p (s : State) : (updateIrq s).p = s.p := by
  rfl
@[simp] theorem updateIrq_pc (s : State) : (updateIrq s).pc = s.pc := by
  rfl
@[simp] theorem updateIrq_cycleTime (s : State) : (updateIrq s).cycleTime = s.cycleTime := by
  rfl
@[simp] theorem updateIrq_nmiPending (s : State) : (updateIrq s).nmiPending = s.nmiPending := by
  rfl
@[simp] theorem updateIrq_bpKind (s : State) : (updateIrq s).bpKind = s.bpKind := by
  rfl
@[simp] theorem updateIrq_bpAddr (s : State) : (updateIrq s).bpAddr = s.bpAddr := by
  rfl
@[simp] theorem updateIrq_bpHit (s : State) : (updateIrq s).bpHit = s.bpHit := by
  rfl
@[simp] theorem updateIrq_currentInstruction (s : State) : (updateIrq s).currentInstruction = s.currentInstruction := by
  rfl
@[simp] theorem updateIrq_ram (s : State) : (updateIrq s).ram = s.ram := by
  rfl
@[simp] theorem updateIrq_osRom (s : State) : (updateIrq s).osRom = s.osRom := by
  rfl
@[simp] theorem updateIrq_pagedRoms (s : State) : (updateIrq s).pagedRoms = s.pagedRoms := by
  rfl
@[simp] theorem updateIrq_page (s : State) : (updateIrq s).page = s.page := by
  rfl
@[simp] theorem updateIrq_sheila (s : State) : (updateIrq s).sheila = s.sheila := by
  rfl
@[simp] theorem updateIrq_intStatus (s : State) : (updateIrq s).intStatus = s.intStatus := by
  rfl
@[simp] theorem updateIrq_enableMask (s : State) : (updateIrq s).enableMask = s.enableMask := by
  rfl
@[simp] theorem updateIrq_scanline (s : State) : (updateIrq s).scanline = s.scanline := by
  rfl
@[simp] theorem updateIrq_cassetteCounter (s : State) : (updateIrq s).cassetteCounter = s.cassetteCounter := by
  rfl
@[simp] theorem updateIrq_dataShiftHasData (s : State) : (updateIrq s).dataShiftHasData = s.dataShiftHasData := by
  rfl
@[simp] theorem updateIrq_keyboard (s : State) : (updateIrq s).keyboard = s.keyboard := by
  rfl
@[simp] theorem updateIrq_driver (s : State) : (updateIrq s).driver = s.driver := by
  rfl
@[simp] theorem updateIrq_output (s : State) : (updateIrq s).output = s.output := by
  rfl
@[simp] theorem updateIrq_tape (s : State) : (updateIrq s).tape = s.tape := by
  rfl
@[simp] theorem updateIrq_calls (s : State) : (updateIrq s).calls = s.calls := by
  rfl

@[simp] theorem putStatus_a (b : Nat) (v : Bool) (s : State) : (putStatus b v s).a = s.a := by
  rfl
@[simp] theorem putStatus_x (b : Nat) (v : Bool) (s : State) : (putStatus b v s).x = s.x := by
  rfl
@[simp] theorem putStatus_y (b : Nat) (v : Bool) (s : State) : (putStatus b v s).y = s.y := by
  rfl
@[simp] theorem putStatus_sp (b : Nat) (v : Bool) (s : State) : (putStatus b v s).sp = s.sp := by
  rfl
@[simp] theorem putStatus_p (b : Nat) (v : Bool) (s : State) : (putStatus b v s).p = s.p := by
  rfl
@[simp] theorem putStatus_pc (b : Nat) (v : Bool) (s : State) : (putStatus b v s).pc = s.pc := by
  rfl
@[simp] theorem putStatus_cycleTime (b : Nat) (v : Bool) (s : State) : (putStatus b v s).cycleTime = s.cycleTime := by
  rfl
@[simp] theorem putStatus_irqPending (b : Nat) (v : Bool) (s : State) : (putStatus b v s).irqPending = s.irqPending := by
  rfl
@[simp] theorem putStatus_nmiPending (b : Nat) (v : Bool) (s : State) : (putStatus b v s).nmiPending = s.nmiPending := by
  rfl
@[simp] theorem putStatus_bpKind (b : Nat) (v : Bool) (s : State) : (putStatus b v s).bpKind = s.bpKind := by
  rfl
@[simp] theorem putStatus_bpAddr (b : Nat) (v : Bool) (s : State) : (putStatus b v s).bpAddr = s.bpAddr := by
  rfl
@[simp] theorem putStatus_bpHit (b : Nat) (v : Bool) (s : State) : (putStatus b v s).bpHit = s.bpHit := by
  rfl
@[simp] theorem putStatus_currentInstruction (b : Nat) (v : Bool) (s : State) : (putStatus b v s).currentInstruction = s.currentInstruction := by
  rfl
@[simp] theorem putStatus_ram (b : Nat) (v : Bool) (s : State) : (putStatus b v s).ram = s.ram := by
  rfl
@[simp] theorem putStatus_osRom (b : Nat) (v : Bool) (s : State) : (putStatus b v s).osRom = s.osRom := by
  rfl
@[simp] theorem putStatus_pagedRoms (b : Nat) (v : Bool) (s : State) : (putStatus b v s).pagedRoms = s.pagedRoms := by
  rfl
@[simp] theorem putStatus_page (b : Nat) (v : Bool) (s : State) : (putStatus b v s).page = s.page := by
  rfl
@[simp] theorem putStatus_sheila (b : Nat) (v : Bool) (s : State) : (putStatus b v s).sheila = s.sheila := by
  rfl
@[simp] theorem putStatus_enableMask (b : Nat) (v : Bool) (s : State) : (putStatus b v s).enableMask = s.enableMask := by
  rfl
@[simp] theorem putStatus_scanline (b : Nat) (v : Bool) (s : State) : (putStatus b v s).scanline = s.scanline := by
  rfl
@[simp] theorem putStatus_cassetteCounter (b : Nat) (v : Bool) (s : State) : (putStatus b v s).cassetteCounter = s.cassetteCounter := by
  rfl
@[simp] theorem putStatus_dataShiftHasData (b : Nat) (v : Bool) (s : State) : (putStatus b v s).dataShiftHasData = s.dataShiftHasData := by
  rfl
@[simp] theorem putStatus_keyboard (b : Nat) (v : Bool) (s : State) : (putStatus b v s).keyboard = s.keyboard := by
  rfl
@[simp] theorem putStatus_driver (b : Nat) (v : Bool) (s : State) : (putStatus b v s).driver = s.driver := by
  rfl
@[simp] theorem putStatus_output (b : Nat) (v : Bool) (s : State) : (putStatus b v s).output = s.output := by
  rfl
@[simp] theorem putStatus_tape (b : Nat) (v : Bool) (s : State) : (putStatus b v s).tape = s.tape := by
  rfl
@[simp] theorem putStatus_calls (b : Nat) (v : Bool) (s : State) : (putStatus b v s).calls = s.calls := by
  rfl

@[simp] theorem raiseCondition_a (b : Nat) (s : State) : (raiseCondition b s).a = s.a := by
  rfl
@[simp] theorem raiseCondition_x (b : Nat) (s : State) : (raiseCondition b s).x = s.x := by
  rfl
@[simp] theorem raiseCondition_y (b : Nat) (s : State) : (raiseCondition b s).y = s.y := by
  rfl
@[simp] theorem raiseCondition_sp (b : Nat) (s : State) : (raiseCondition b s).sp = s.sp := by
  rfl
@[simp] theorem raiseCondition_p (b : Nat) (s : State) : (raiseCondition b s).p = s.p := by
  rfl
@[simp] theorem raiseCondition_pc (b : Nat) (s : State) : (raiseCondition b s).pc = s.pc := by
  rfl
@[simp] theorem raiseCondition_cycleTime (b : Nat) (s : State) : (raiseCondition b s).cycleTime = s.cycleTime := by
  rfl
@[simp] theorem raiseCondition_nmiPending (b : Nat) (s : State) : (raiseCondition b s).nmiPending = s.nmiPending := by
  rfl
@[simp] theorem raiseCondition_bpKind (b : Nat) (s : State) : (raiseCondition b s).bpKind = s.bpKind := by
  rfl
@[simp] theorem raiseCondition_bpAddr (b : Nat) (s : State) : (raiseCondition b s).bpAddr = s.bpAddr := by
  rfl
@[simp] theorem raiseCondition_bpHit (b : Nat) (s : State) : (raiseCondition b s).bpHit = s.bpHit := by
  rfl
@[simp] theorem raiseCondition_currentInstruction (b : Nat) (s : State) : (raiseCondition b s).currentInstruction = s.currentInstruction := by
  rfl
@[simp] theorem raiseCondition_ram (b : Nat) (s : State) : (raiseCondition b s).ram = s.ram := by
  rfl
@[simp] theorem raiseCondition_osRom (b : Nat) (s : State) : (raiseCondition b s).osRom = s.osRom := by
  rfl
@[simp] theorem raiseCondition_pagedRoms (b : Nat) (s : State) : (raiseCondition b s).pagedRoms = s.pagedRoms := by
  rfl
@[simp] theorem raiseCondition_page (b : Nat) (s : State) : (raiseCondition b s).page = s.page := by
  rfl
@[simp] theorem raiseCondition_sheila (b : Nat) (s : State) : (raiseCondition b s).sheila = s.sheila := by
  rfl
@[simp] theorem raiseCondition_enableMask (b : Nat) (s : State) : (raiseCondition b s).enableMask = s.enableMask := by
  rfl
@[simp] theorem raiseCondition_scanline (b : Nat) (s : State) : (raiseCondition b s).scanline = s.scanline := by
  rfl
@[simp] theorem raiseCondition_cassetteCounter (b : Nat) (s : State) : (raiseCondition b s).cassetteCounter = s.cassetteCounter := by
  rfl
@[simp] theorem raiseCondition_dataShiftHasData (b : Nat) (s : State) : (raiseCondition b s).dataShiftHasData = s.dataShiftHasData := by
  rfl
@[simp] theorem raiseCondition_keyboard (b : Nat) (s : State) : (raiseCondition b s).keyboard = s.keyboard := by
  rfl
@[simp] theorem raiseCondition_driver (b : Nat) (s : State) : (raiseCondition b s).driver = s.driver := by
  rfl
@[simp] theorem raiseCondition_output (b : Nat) (s : State) : (raiseCondition b s).output = s.output := by
  rfl
@[simp] theorem raiseCondition_tape (b : Nat) (s : State) : (raiseCondition b s).tape = s.tape := by
  rfl
@[simp] theorem raiseCondition_calls (b : Nat) (s : State) : (raiseCondition b s).calls = s.calls := by
  rfl

@[simp] theorem emitPalette_a (s : State) : (emitPalette s).a = s.a := by
  rfl
@[simp] theorem emitPalette_x (s : State) : (emitPalette s).x = s.x := by
  rfl
@[simp] theorem emitPalette_y (s : State) : (emitPalette s).y = s.y := by
  rfl
@[simp] theorem emitPalette_sp (s : State) : (emitPalette s).sp = s.sp := by
  rfl
@[simp] theorem emitPalette_p (s : State) : (emitPalette s).p = s.p := by
  rfl
@[simp] theorem emitPalette_pc (s : State) : (emitPalette s).pc = s.pc := by
  rfl
@[simp] theorem emitPalette_cycleTime (s : State) : (emitPalette s).cycleTime = s.cycleTime := by
  rfl
@[simp] theorem emitPalette_irqPending (s : State) : (emitPalette s).irqPending = s.irqPending := by
  rfl
@[simp] theorem emitPalette_nmiPending (s : State) : (emitPalette s).nmiPending = s.nmiPending := by
  rfl
@[simp] theorem emitPalette_bpKind (s : State) : (emitPalette s).bpKind = s.bpKind := by
  rfl
@[simp] theorem emitPalette_bpAddr (s : State) : (emitPalette s).bpAddr = s.bpAddr := by
  rfl
@[simp] theorem emitPalette_bpHit (s : State) : (emitPalette s).bpHit = s.bpHit := by
  rfl
@[simp] theorem emitPalette_currentInstruction (s : State) : (emitPalette s).currentInstruction = s.currentInstruction := by
  rfl
@[simp] theorem emitPalette_ram (s : State) : (emitPalette s).ram = s.ram := by
  rfl
@[simp] theorem emitPalette_osRom (s : State) : (emitPalette s).osRom = s.osRom := by
  rfl
@[simp] theorem emitPalette_pagedRoms (s : State) : (emitPalette s).pagedRoms = s.pagedRoms := by
  rfl
@[simp] theorem emitPalette_page (s : State) : (emitPalette s).page = s.page := by
  rfl
@[simp] theorem emitPalette_sheila (s : State) : (emitPalette s).sheila = s.sheila := by
  rfl
@[simp] theorem emitPalette_intStatus (s : State) : (emitPalette s).intStatus = s.intStatus := by
  rfl
@[simp] theorem emitPalette_enableMask (s : State) : (emitPalette s).enableMask = s.enableMask := by
  rfl
@[simp] theorem emitPalette_scanline (s : State) : (emitPalette s).scanline = s.scanline := by
  rfl
@[simp] theorem emitPalette_cassetteCounter (s : State) : (emitPalette s).cassetteCounter = s.cassetteCounter := by
  rfl
@[simp] theorem emitPalette_dataShiftHasData (s : State) : (emitPalette s).dataShiftHasData = s.dataShiftHasData := by
  rfl
@[simp] theorem emitPalette_keyboard (s : State) : (emitPalette s).keyboard = s.keyboard := by
  rfl
@[simp] theorem emitPalette_driver (s : State) : (emitPalette s).driver = s.driver := by
  rfl
@[simp] theorem emitPalette_tape (s : State) : (emitPalette s).tape = s.tape := by
  rfl
@[simp] theorem emitPalette_calls (s : State) : (emitPalette s).calls = s.calls := by
  rfl

@[simp] theorem writeControl_a (v : Byte) (s : State) : (writeControl v s).a = s.a := by
  unfold writeControl; dsimp only; split <;> split <;> simp
@[simp] theorem writeControl_x (v : Byte) (s : State) : (writeControl v s).x = s.x := by
  unfold writeControl; dsimp only; split <;> split <;> simp
@[simp] theorem writeControl_y (v : Byte) (s : State) : (writeControl v s).y = s.y := by
  unfold writeControl; dsimp only; split <;> split <;> simp
@[simp] theorem writeControl_sp (v : Byte) (s : State) : (writeControl v s).sp = s.sp := by
  unfold writeControl; dsimp only; split <;> split <;> simp
@[simp] theorem writeControl_p (v : Byte) (s : State) : (writeControl v s).p = s.p := by
  unfold writeControl; dsimp only; split <;> split <;> simp
@[simp] theorem writeControl_pc (v : Byte) (s : State) : (writeControl v s).pc = s.pc := by
  unfold writeControl; dsimp only; split <;> split <;> simp
@[simp] theorem writeControl_cycleTime (v : Byte) (s : State) : (writeControl v s).cycleTime = s.cycleTime := by
  unfold writeControl; dsimp only; split <;> split <;> simp
@[simp] theorem writeControl_nmiPending (v : Byte) (s : State) : (writeControl v s).nmiPending = s.nmiPending := by
  unfold writeControl; dsimp only; split <;> split <;> simp
@[simp] theorem writeControl_bpKind (v : Byte) (s : State) : (writeControl v s).bpKind = s.bpKind := by
  unfold writeControl; dsimp only; split <;> split <;> simp
@[simp] theorem writeControl_bpAddr (v : Byte) (s : State) : (writeControl v s).bpAddr = s.bpAddr := by
  unfold writeControl; dsimp only; split <;> split <;> simp
@[simp] theorem writeControl_bpHit (v : Byte) (s : State) : (writeControl v s).bpHit = s.bpHit := by
  unfold writeControl; dsimp only; split <;> split <;> simp
@[simp] theorem writeControl_currentInstruction (v : Byte) (s : State) : (writeControl v s).currentInstruction = s.currentInstruction := by
  unfold writeControl; dsimp only; split <;> split <;> simp
@[simp] theorem writeControl_ram (v : Byte) (s : State) : (writeControl v s).ram = s.ram := by
  unfold writeControl; dsimp only; split <;> split <;> simp
@[simp] theorem writeControl_osRom (v : Byte) (s : State) : (writeControl v s).osRom = s.osRom := by
  unfold writeControl; dsimp only; split <;> split <;> simp
@[simp] theorem writeControl_pagedRoms (v : Byte) (s : State) : (writeControl v s).pagedRoms = s.pagedRoms := by
  unfold writeControl; dsimp only; split <;> split <;> simp
@[simp] theorem writeControl_page (v : Byte) (s : State) : (writeControl v s).page = s.page := by
  unfold writeControl; dsimp only; split <;> split <;> simp
@[simp] theorem writeControl_enableMask (v : Byte) (s : State) : (writeControl v s).enableMask = s.enableMask := by
  unfold writeControl; dsimp only; split <;> split <;> simp
@[simp] theorem writeControl_scanline (v : Byte) (s : State) : (writeControl v s).scanline = s.scanline := by
  unfold writeControl; dsimp only; split <;> split <;> simp
@[simp] theorem writeControl_cassetteCounter (v : Byte) (s : State) : (writeControl v s).cassetteCounter = s.cassetteCounter := by
  unfold writeControl; dsimp only; split <;> split <;> simp
@[simp] theorem writeControl_keyboard (v : Byte) (s : State) : (writeControl v s).keyboard = s.keyboard := by
  unfold writeControl; dsimp only; split <;> split <;> simp
@[simp] theorem writeControl_driver (v : Byte) (s : State) : (writeControl v s).driver = s.driver := by
  unfold writeControl; dsimp only; split <;> split <;> simp
@[simp] theorem writeControl_tape (v : Byte) (s : State) : (writeControl v s).tape = s.tape := by
  unfold writeControl; dsimp only; split <;> split <;> simp
@[simp] theorem writeControl_calls (v : Byte) (s : State) : (writeControl v s).calls = s.calls := by
  unfold writeControl; dsimp only; split <;> split <;> simp

@[simp] theorem ulaWrite_a (off : Fin 16) (v : Byte) (s : State) : (ulaWrite off v s).a = s.a := by
  unfold ulaWrite writeEnable writeData writePage; split <;> first | simp | (split <;> simp)
@[simp] theorem ulaWrite_x (off : Fin 16) (v : Byte) (s : State) : (ulaWrite off v s).x = s.x := by
  unfold ulaWrite writeEnable writeData writePage; split <;> first | simp | (split <;> simp)
@[simp] theorem ulaWrite_y (off : Fin 16) (v : Byte) (s : State) : (ulaWrite off v s).y = s.y := by
  unfold ulaWrite writeEnable writeData writePage; split <;> first | simp | (split <;> simp)
@[simp] theorem ulaWrite_sp (off : Fin 16) (v : Byte) (s : State) : (ulaWrite off v s).sp = s.sp := by
  unfold ulaWrite writeEnable writeData writePage; split <;> first | simp | (split <;> simp)
@[simp] theorem ulaWrite_p (off : Fin 16) (v : Byte) (s : State) : (ulaWrite off v s).p = s.p := by
  unfold ulaWrite writeEnable writeData writePage; split <;> first | simp | (split <;> simp)
@[simp] theorem ulaWrite_pc (off : Fin 16) (v : Byte) (s : State) : (ulaWrite off v s).pc = s.pc := by
  unfold ulaWrite writeEnable writeData writePage; split <;> first | simp | (split <;> simp)
@[simp] theorem ulaWrite_cycleTime (off : Fin 16) (v : Byte) (s : State) : (ulaWrite off v s).cycleTime = s.cycleTime := by
  unfold ulaWrite writeEnable writeData writePage; split <;> first | simp | (split <;> simp)
@[simp] theorem ulaWrite_nmiPending (off : Fin 16) (v : Byte) (s : State) : (ulaWrite off v s).nmiPending = s.nmiPending := by
  unfold ulaWrite writeEnable writeData writePage; split <;> first | simp | (split <;> simp)
@[simp] theorem ulaWrite_bpKind (off : Fin 16) (v : Byte) (s : State) : (ulaWrite off v s).bpKind = s.bpKind := by
  unfold ulaWrite writeEnable writeData writePage; split <;> first | simp | (split <;> simp)
@[simp] theorem ulaWrite_bpAddr (off : Fin 16) (v : Byte) (s : State) : (ulaWrite off v s).bpAddr = s.bpAddr := by
  unfold ulaWrite writeEnable writeData writePage; split <;> first | simp | (split <;> simp)
@[simp] theorem ulaWrite_bpHit (off : Fin 16) (v : Byte) (s : State) : (ulaWrite off v s).bpHit = s.bpHit := by
  unfold ulaWrite writeEnable writeData writePage; split <;> first | simp | (split <;> simp)
@[simp] theorem ulaWrite_currentInstruction (off : Fin 16) (v : Byte) (s : State) : (ulaWrite off v s).currentInstruction = s.currentInstruction := by
  unfold ulaWrite writeEnable writeData writePage; split <;> first | simp | (split <;> simp)
@[simp] theorem ulaWrite_ram (off : Fin 16) (v : Byte) (s : State) : (ulaWrite off v s).ram = s.ram := by
  unfold ulaWrite writeEnable writeData writePage; split <;> first | simp | (split <;> simp)
@[simp] theorem ulaWrite_osRom (off : Fin 16) (v : Byte) (s : State) : (ulaWrite off v s).osRom = s.osRom := by
  unfold ulaWrite writeEnable writeData writePage; split <;> first | simp | (split <;> simp)
@[simp] theorem ulaWrite_pagedRoms (off : Fin 16) (v : Byte) (s : State) : (ulaWrite off v s).pagedRoms = s.pagedRoms := by
  unfold ulaWrite writeEnable writeData writePage; split <;> first | simp | (split <;> simp)
@[simp] theorem ulaWrite_scanline (off : Fin 16) (v : Byte) (s : State) : (ulaWrite off v s).scanline = s.scanline := by
  unfold ulaWrite writeEnable writeData writePage; split <;> first | simp | (split <;> simp)
@[simp] theorem ulaWrite_cassetteCounter (off : Fin 16) (v : Byte) (s : State) : (ulaWrite off v s).cassetteCounter = s.cassetteCounter := by
  unfold ulaWrite writeEnable writeData writePage; split <;> first | simp | (split <;> simp)
@[simp] theorem ulaWrite_keyboard (off : Fin 16) (v : Byte) (s : State) : (ulaWrite off v s).keyboard = s.keyboard := by
  unfold ulaWrite writeEnable writeData writePage; split <;> first | simp | (split <;> simp)
@[simp] theorem ulaWrite_driver (off : Fin 16) (v : Byte) (s : State) : (ulaWrite off v s).driver = s.driver := by
  unfold ulaWrite writeEnable writeData writePage; split <;> first | simp | (split <;> simp)
@[simp] theorem ulaWrite_tape (off : Fin 16) (v : Byte) (s : State) : (ulaWrite off v s).tape = s.tape := by
  unfold ulaWrite writeEnable writeData writePage; split <;> first | simp | (split <;> simp)
@[simp] theorem ulaWrite_calls (off : Fin 16) (v : Byte) (s : State) : (ulaWrite off v s).calls = s.calls := by
  unfold ulaWrite writeEnable writeData writePage; split <;> first | simp | (split <;> simp)

@[simp] theorem machineWrite_a (a : Word) (v : Byte) (s : State) : (machineWrite a v s).a = s.a := by
  unfold machineWrite; split <;> simp
@[simp] theorem machineWrite_x (a : Word) (v : Byte) (s : State) : (machineWrite a v s).x = s.x := by
  unfold machineWrite; split <;> simp
@[simp] theorem machineWrite_y (a : Word) (v : Byte) (s : State) : (machineWrite a v s).y = s.y := by
  unfold machineWrite; split <;> simp
@[simp] theorem machineWrite_sp (a : Word) (v : Byte) (s : State) : (machineWrite a v s).sp = s.sp := by
  unfold machineWrite; split <;> simp
@[simp] theorem machineWrite_p (a : Word) (v : Byte) (s : State) : (machineWrite a v s).p = s.p := by
  unfold machineWrite; split <;> simp
@[simp] theorem machineWrite_pc (a : Word) (v : Byte) (s : State) : (machineWrite a v s).pc = s.pc := by
  unfold machineWrite; split <;> simp
@[simp] theorem machineWrite_cycleTime (a : Word) (v : Byte) (s : State) : (machineWrite a v s).cycleTime = s.cycleTime := by
  unfold machineWrite; split <;> simp
@[simp] theorem machineWrite_nmiPending (a : Word) (v : Byte) (s : State) : (machineWrite a v s).nmiPending = s.nmiPending := by
  unfold machineWrite; split <;> simp
@[simp] theorem machineWrite_bpKind (a : Word) (v : Byte) (s : State) : (machineWrite a v s).bpKind = s.bpKind := by
  unfold machineWrite; split <;> simp
@[simp] theorem machineWrite_bpAddr (a : Word) (v : Byte) (s : State) : (machineWrite a v s).bpAddr = s.bpAddr := by
  unfold machineWrite; split <;> simp
@[simp] theorem machineWrite_bpHit (a : Word) (v : Byte) (s : State) : (machineWrite a v s).bpHit = s.bpHit := by
  unfold machineWrite; split <;> simp
@[simp] theorem machineWrite_currentInstruction (a : Word) (v : Byte) (s : State) : (machineWrite a v s).currentInstruction = s.currentInstruction := by
  unfold machineWrite; split <;> simp
@[simp] theorem machineWrite_osRom (a : Word) (v : Byte) (s : State) : (machineWrite a v s).osRom = s.osRom := by
  unfold machineWrite; split <;> simp
@[simp] theorem machineWrite_pagedRoms (a : Word) (v : Byte) (s : State) : (machineWrite a v s).pagedRoms = s.pagedRoms := by
  unfold machineWrite; split <;> simp
@[simp] theorem machineWrite_scanline (a : Word) (v : Byte) (s : State) : (machineWrite a v s).scanline = s.scanline := by
  unfold machineWrite; split <;> simp
@[simp] theorem machineWrite_cassetteCounter (a : Word) (v : Byte) (s : State) : (machineWrite a v s).cassetteCounter = s.cassetteCounter := by
  unfold machineWrite; split <;> simp
@[simp] theorem machineWrite_keyboard (a : Word) (v : Byte) (s : State) : (machineWrite a v s).keyboard = s.keyboard := by
  unfold machineWrite; split <;> simp
@[simp] theorem machineWrite_driver (a : Word) (v : Byte) (s : State) : (machineWrite a v s).driver = s.driver := by
  unfold machineWrite; split <;> simp
@[simp] theorem machineWrite_tape (a : Word) (v : Byte) (s : State) : (machineWrite a v s).tape = s.tape := by
  unfold machineWrite; split <;> simp
@[simp] theorem machineWrite_calls (a : Word) (v : Byte) (s : State) : (machineWrite a v s).calls = s.calls := by
  unfold machineWrite; split <;> simp

@[simp] theorem write_a (a : Word) (v : Byte) (s : State) : (write a v s).a = s.a := by
  simp [write]
@[simp] theorem write_x (a : Word) (v : Byte) (s : State) : (write a v s).x = s.x := by
  simp [write]
@[simp] theorem write_y (a : Word) (v : Byte) (s : State) : (write a v s).y = s.y := by
  simp [write]
@[simp] theorem write_sp (a : Word) (v : Byte) (s : State) : (write a v s).sp = s.sp := by
  simp [write]
@[simp] theorem write_p (a : Word) (v : Byte) (s : State) : (write a v s).p = s.p := by
  simp [write]
@[simp] theorem write_pc (a : Word) (v : Byte) (s : State) : (write a v s).pc = s.pc := by
  simp [write]
@[simp] theorem write_cycleTime (a : Word) (v : Byte) (s : State) : (write a v s).cycleTime = s.cycleTime := by
  simp [write]
@[simp] theorem write_nmiPending (a : Word) (v : Byte) (s : State) : (write a v s).nmiPending = s.nmiPending := by
  simp [write]
@[simp] theorem write_bpKind (a : Word) (v : Byte) (s : State) : (write a v s).bpKind = s.bpKind := by
  simp [write]
@[simp] theorem write_bpAddr (a : Word) (v : Byte) (s : State) : (write a v s).bpAddr = s.bpAddr := by
  simp [write]
@[simp] theorem write_currentInstruction (a : Word) (v : Byte) (s : State) : (write a v s).currentInstruction = s.currentInstruction := by
  simp [write]
@[simp] theorem write_osRom (a : Word) (v : Byte) (s : State) : (write a v s).osRom = s.osRom := by
  simp [write]
@[simp] theorem write_pagedRoms (a : Word) (v : Byte) (s : State) : (write a v s).pagedRoms = s.pagedRoms := by
  simp [write]
@[simp] theorem write_scanline (a : Word) (v : Byte) (s : State) : (write a v s).scanline = s.scanline := by
  simp [write]
@[simp] theorem write_cassetteCounter (a : Word) (v : Byte) (s : State) : (write a v s).cassetteCounter = s.cassetteCounter := by
  simp [write]
@[simp] theorem write_keyboard (a : Word) (v : Byte) (s : State) : (write a v s).keyboard = s.keyboard := by
  simp [write]
@[simp] theorem write_driver (a : Word) (v : Byte) (s : State) : (write a v s).driver = s.driver := by
  simp [write]
@[simp] theorem write_tape (a : Word) (v : Byte) (s : State) : (write a v s).tape = s.tape := by
  simp [write]
@[simp] theorem write_calls (a : Word) (v : Byte) (s : State) : (write a v s).calls = s.calls := by
  simp [write]

@[simp] theorem charge_a (n : Nat) (s : State) : (charge n s).a = s.a := by
  rfl
@[simp] theorem charge_x (n : Nat) (s : State) : (charge n s).x = s.x := by
  rfl
@[simp] theorem charge_y (n : Nat) (s : State) : (charge n s).y = s.y := by
  rfl
@[simp] theorem charge_sp (n : Nat) (s : State) : (charge n s).sp = s.sp := by
  rfl
@[simp] theorem charge_p (n : Nat) (s : State) : (charge n s).p = s.p := by
  rfl
@[simp] theorem charge_pc (n : Nat) (s : State) : (charge n s).pc = s.pc := by
  rfl
@[simp] theorem charge_irqPending (n : Nat) (s : State) : (charge n s).irqPending = s.irqPending := by
  rfl
@[simp] theorem charge_nmiPending (n : Nat) (s : State) : (charge n s).nmiPending = s.nmiPending := by
  rfl
@[simp] theorem charge_bpKind (n : Nat) (s : State) : (charge n s).bpKind = s.bpKind := by
  rfl
@[simp] theorem charge_bpAddr (n : Nat) (s : State) : (charge n s).bpAddr = s.bpAddr := by
  rfl
@[simp] theorem charge_bpHit (n : Nat) (s : State) : (charge n s).bpHit = s.bpHit := by
  rfl
@[simp] theorem charge_currentInstruction (n : Nat) (s : State) : (charge n s).currentInstruction = s.currentInstruction := by
  rfl
@[simp] theorem charge_ram (n : Nat) (s : State) : (charge n s).ram = s.ram := by
  rfl
@[simp] theorem charge_osRom (n : Nat) (s : State) : (charge n s).osRom = s.osRom := by
  rfl
@[simp] theorem charge_pagedRoms (n : Nat) (s : State) : (charge n s).pagedRoms = s.pagedRoms := by
  rfl
@[simp] theorem charge_page (n : Nat) (s : State) : (charge n s).page = s.page := by
  rfl
@[simp] theorem charge_sheila (n : Nat) (s : State) : (charge n s).sheila = s.sheila := by
  rfl
@[simp] theorem charge_intStatus (n : Nat) (s : State) : (charge n s).intStatus = s.intStatus := by
  rfl
@[simp] theorem charge_enableMask (n : Nat) (s : State) : (charge n s).enableMask = s.enableMask := by
  rfl
@[simp] theorem charge_scanline (n : Nat) (s : State) : (charge n s).scanline = s.scanline := by
  rfl
@[simp] theorem charge_cassetteCounter (n : Nat) (s : State) : (charge n s).cassetteCounter = s.cassetteCounter := by
  rfl
@[simp] theorem charge_dataShiftHasData (n : Nat) (s : State) : (charge n s).dataShiftHasData = s.dataShiftHasData := by
  rfl
@[simp] theorem charge_keyboard (n : Nat) (s : State) : (charge n s).keyboard = s.keyboard := by
  rfl
@[simp] theorem charge_driver (n : Nat) (s : State) : (charge n s).driver = s.driver := by
  rfl
@[simp] theorem charge_output (n : Nat) (s : State) : (charge n s).output = s.output := by
  rfl
@[simp] theorem charge_tape (n : Nat) (s : State) : (charge n s).tape = s.tape := by
  rfl
@[simp] theorem charge_calls (n : Nat) (s : State) : (charge n s).calls = s.calls := by
  rfl

@[simp] theorem charge_cycleTime (n : Nat) (s : State) : (charge n s).cycleTime = s.cycleTime + n := rfl

end Sys2Proof.Machine
end

