-- ==== Sys2Proof/Laws/Memory.lean ====
section
/-! SUPPORT. The laws of memory: a read after a write, and the canonical form kept by every operation that writes memory. -/

namespace Sys2Proof.Machine

/-- A byte written is read back, and no other byte changes. -/
theorem Memory.get?_set (m : List Host.Cell) (a b : Nat) (v : Byte) :
    Memory.get? (Memory.set m a v) b = if b = a then some v else Memory.get? m b := by
  induction m with
  | nil => simp only [Memory.set, Memory.get?]; by_cases h : a = b <;> simp [h, eq_comm]
  | cons c m ih =>
    obtain ⟨k, w⟩ := c
    simp only [Memory.set]
    split
    · simp only [Memory.get?]; by_cases h : a = b <;> simp [h, eq_comm]
    · split
      · next h => subst h; simp only [Memory.get?]; by_cases h : a = b <;> simp [h, eq_comm]
      · next h1 h2 =>
        simp only [Memory.get?, ih]
        by_cases hk : k = b
        · subst hk; simp [show ¬k = a from fun e => h2 e.symm]
        · simp [hk]

/-- A write keeps the canonical form. -/
theorem Memory.wfFrom_set (bound : Nat) (m : List Host.Cell) (lo a : Nat) (v : Byte) (hlo : lo ≤ a) (ha : a < bound)
    (h : Memory.wfFrom bound lo m = true) : Memory.wfFrom bound lo (Memory.set m a v) = true := by
  induction m generalizing lo with
  | nil => simp [Memory.set, Memory.wfFrom, hlo, ha]
  | cons c m ih =>
    obtain ⟨k, w⟩ := c
    simp only [Memory.wfFrom, Bool.and_eq_true, decide_eq_true_eq] at h
    simp only [Memory.set]
    split
    · simp only [Memory.wfFrom, Bool.and_eq_true, decide_eq_true_eq]
      exact ⟨⟨hlo, ha⟩, ⟨by omega, h.1.2⟩, h.2⟩
    · split
      · next e => subst e; simp only [Memory.wfFrom, Bool.and_eq_true, decide_eq_true_eq]; exact h
      · simp only [Memory.wfFrom, Bool.and_eq_true, decide_eq_true_eq]
        exact ⟨h.1, ih (k + 1) (by omega) h.2⟩

theorem Memory.wf_set (bound : Nat) (m : List Host.Cell) (a : Nat) (v : Byte) (ha : a < bound)
    (h : Memory.wf bound m = true) : Memory.wf bound (Memory.set m a v) = true :=
  Memory.wfFrom_set bound m 0 a v (Nat.zero_le a) ha h

/-- In a canonical list no byte is listed below its lower end. -/
theorem Memory.get?_of_lt (bound : Nat) (m : List Host.Cell) (lo a : Nat) (h : Memory.wfFrom bound lo m = true)
    (ha : a < lo) : Memory.get? m a = none := by
  induction m generalizing lo with
  | nil => rfl
  | cons c m ih =>
    obtain ⟨k, w⟩ := c
    simp only [Memory.wfFrom, Bool.and_eq_true, decide_eq_true_eq] at h
    have hk : k ≠ a := by omega
    simp only [Memory.get?, if_neg hk]
    exact ih (k + 1) h.2 (by omega)

/-- Equal memories are equal data. -/
theorem Memory.ext_wfFrom (bound : Nat) (m n : List Host.Cell) (lo : Nat) (hm : Memory.wfFrom bound lo m = true)
    (hn : Memory.wfFrom bound lo n = true) (h : ∀ a, Memory.get? m a = Memory.get? n a) : m = n := by
  induction m generalizing n lo with
  | nil =>
    cases n with
    | nil => rfl
    | cons c n => have := h c.1; simp [Memory.get?] at this
  | cons c m ih =>
    obtain ⟨k, w⟩ := c
    cases n with
    | nil => have := h k; simp [Memory.get?] at this
    | cons d n =>
      obtain ⟨k', w'⟩ := d
      simp only [Memory.wfFrom, Bool.and_eq_true, decide_eq_true_eq] at hm hn
      have hkk : k = k' := by
        rcases Nat.lt_trichotomy k k' with hlt | he | hlt
        · have := h k
          rw [Memory.get?, if_pos rfl, Memory.get?, if_neg (by omega),
            Memory.get?_of_lt bound n (k' + 1) k hn.2 (by omega)] at this
          exact absurd this (by simp)
        · exact he
        · have := h k'
          rw [Memory.get?, if_neg (by omega), Memory.get?_of_lt bound m (k + 1) k' hm.2 (by omega),
            Memory.get?, if_pos rfl] at this
          exact absurd this (by simp)
      subst hkk
      have hw : w = w' := by have := h k; simpa [Memory.get?] using this
      subst hw
      congr 1
      apply ih n (k + 1) hm.2 hn.2
      intro a
      have := h a
      simp only [Memory.get?] at this
      by_cases ha : k = a
      · subst ha
        rw [Memory.get?_of_lt bound m (k + 1) k hm.2 (by omega), Memory.get?_of_lt bound n (k + 1) k hn.2 (by omega)]
      · simpa [ha] using this

theorem storeBytes_wf (bound : Nat) (bs : List Byte) (a : Nat) (m : List Host.Cell) (ha : a + bs.length ≤ bound)
    (h : Memory.wf bound m = true) : Memory.wf bound (storeBytes a bs m) = true := by
  induction bs generalizing a m with
  | nil => exact h
  | cons b bs ih =>
    simp only [List.length_cons] at ha
    exact ih (a + 1) _ (by omega) (Memory.wf_set bound m a b (by omega) h)

/-! ## ROM images -/

theorem Rom.ofBytesFrom_wfFrom (src : List Byte) (bound off lo : Nat) (hlo : lo ≤ off)
    (h : off + src.length ≤ bound) : Memory.wfFrom bound lo (Rom.ofBytesFrom off src) = true := by
  induction src generalizing off lo with
  | nil => rfl
  | cons b bs ih =>
    simp only [List.length_cons] at h
    simp only [Rom.ofBytesFrom]
    split
    · exact ih (off + 1) lo (by omega) (by omega)
    · simp only [Memory.wfFrom, Bool.and_eq_true, decide_eq_true_eq]
      exact ⟨⟨hlo, by omega⟩, ih (off + 1) (off + 1) (by omega) (by omega)⟩

theorem Rom.ofBytesFrom_nonzero (src : List Byte) (off : Nat) :
    (Rom.ofBytesFrom off src).all (fun c => c.2 != 0) = true := by
  induction src generalizing off with
  | nil => rfl
  | cons b bs ih =>
    simp only [Rom.ofBytesFrom]
    split
    · exact ih (off + 1)
    · next h => simp only [List.all_cons, Bool.and_eq_true]; exact ⟨by simpa using h, ih (off + 1)⟩

/-- A loaded image is in canonical form. -/
theorem Rom.ofBytes_wf (src : List Byte) (h : src.length = romSize) : Rom.wf (Rom.ofBytes src) = true := by
  simp only [Rom.wf, Rom.ofBytes, Bool.and_eq_true]
  exact ⟨Rom.ofBytesFrom_wfFrom src romSize 0 0 (Nat.le_refl 0) (by omega), Rom.ofBytesFrom_nonzero src 0⟩

theorem loadedRom_wf (src : List Byte) : romWf (loadedRom src) = true := by
  unfold loadedRom
  split
  · next h => exact Rom.ofBytes_wf src h
  · rfl

theorem Rom.get?_ofBytesFrom (src : List Byte) (off a : Nat) :
    (Memory.get? (Rom.ofBytesFrom off src) a).getD 0 = if off ≤ a then src.getD (a - off) 0 else 0 := by
  induction src generalizing off with
  | nil => simp [Rom.ofBytesFrom, Memory.get?]
  | cons b bs ih =>
    simp only [Rom.ofBytesFrom]
    split
    · next hb =>
      rw [ih]
      by_cases h1 : off + 1 ≤ a
      · rw [if_pos h1, if_pos (by omega), show a - off = (a - (off + 1)) + 1 by omega]; rfl
      · rw [if_neg h1]
        by_cases h2 : off ≤ a
        · rw [if_pos h2, show a - off = 0 by omega]; simp [hb]
        · rw [if_neg h2]
    · simp only [Memory.get?]
      by_cases h : off = a
      · subst h; simp
      · rw [if_neg h, ih]
        by_cases h1 : off + 1 ≤ a
        · rw [if_pos h1, if_pos (by omega), show a - off = (a - (off + 1)) + 1 by omega]; rfl
        · rw [if_neg h1, if_neg (by omega)]

/-- A loaded image reads back as its bytes. -/
theorem Rom.get_ofBytes (src : List Byte) (off : Nat) : Rom.get (Rom.ofBytes src) off = src.getD off 0 := by
  have := Rom.get?_ofBytesFrom src 0 off
  rw [if_pos (Nat.zero_le off), Nat.sub_zero] at this
  exact this

/-! ## The memory of a state -/

theorem memoryWf_of_eq {s t : State} (h : s.memoryWf = true) (hr : t.ram = s.ram) (ho : t.osRom = s.osRom)
    (hp : t.pagedRoms = s.pagedRoms) : t.memoryWf = true := by
  simpa [State.memoryWf, hr, ho, hp] using h

/-- Every write of the machine keeps the canonical form. -/
theorem machineWrite_memoryWf (a : Word) (v : Byte) (s : State) (h : s.memoryWf = true) :
    (machineWrite a v s).memoryWf = true := by
  unfold machineWrite
  have ha : regionOf a = .ram → a.toNat < ramSize := by
    intro hr
    unfold regionOf at hr
    split at hr
    · assumption
    · split at hr
      · cases hr
      · split at hr <;> cases hr
  split
  · next hr =>
    simp only [State.memoryWf, Bool.and_eq_true] at h ⊢
    exact ⟨⟨Memory.wf_set _ _ _ _ (ha hr) h.1.1, h.1.2⟩, h.2⟩
  · exact memoryWf_of_eq h (by simp) (by simp) (by simp)
  · exact h
  · exact h

/-- A checked write keeps the canonical form. -/
theorem write_memoryWf (a : Word) (v : Byte) (s : State) (h : s.memoryWf = true) : (write a v s).memoryWf = true := by
  have := machineWrite_memoryWf a v s h
  exact memoryWf_of_eq this (by simp [write]) (by simp [write]) (by simp [write])

/-- A ROM load or clear keeps the canonical form. -/
theorem setOsRom_memoryWf (s : State) (r : Option RomImage) (hr : romWf r = true) (h : s.memoryWf = true) :
    (s.setOsRom r).memoryWf = true := by
  simp only [State.memoryWf, Bool.and_eq_true] at h ⊢
  exact ⟨⟨h.1.1, hr⟩, h.2⟩

theorem setPagedRoms_memoryWf (s : State) (k : Fin 16) (r : Option RomImage) (hr : romWf r = true)
    (h : s.memoryWf = true) : (s.setPagedRoms (s.pagedRoms.set k r)).memoryWf = true := by
  simp only [State.memoryWf, Bool.and_eq_true] at h ⊢
  refine ⟨h.1, ?_⟩
  have h2 := h.2
  rw [Vector.all_eq_true] at h2 ⊢
  intro i hi
  simp only [State.setPagedRoms_pagedRoms, Vector.getElem_set]
  split
  · exact hr
  · exact h2 i hi

/-- Placing an instruction keeps the canonical form. -/
theorem placeInstruction_memoryWf (s : State) (bytes : List Byte) (hb : bytes.length ≤ 3) (h : s.memoryWf = true) :
    (placeInstruction s bytes).memoryWf = true := by
  have hstart : programStart.toNat + bytes.length ≤ ramSize := by
    have : programStart.toNat = 0x200 := by decide
    unfold ramSize
    omega
  have hr : (s.setRam (storeBytes programStart.toNat bytes s.ram)).memoryWf = true := by
    simp only [State.memoryWf, Bool.and_eq_true] at h ⊢
    exact ⟨⟨storeBytes_wf ramSize bytes _ s.ram hstart h.1.1, h.1.2⟩, h.2⟩
  exact memoryWf_of_eq hr (by simp [placeInstruction]) (by simp [placeInstruction]) (by simp [placeInstruction])

/-- The memory of the state after reset is in canonical form. -/
theorem reset_memoryWf : State.reset.memoryWf = true := by
  simp [State.memoryWf, State.reset, Memory.wf, Memory.wfFrom, romWf]

end Sys2Proof.Machine
end

