-- ==== Sys2Proof/Laws/Ops.lean ====
section
/-! SUPPORT. What each shared operation does, said once: the lemmas that a proof cites instead of unfolding the operation. -/

namespace Sys2Proof.Machine

/-! ## Regions -/

theorem regionOf_ram {a : Word} : regionOf a = .ram ↔ a.toNat < 0x8000 := by
  unfold regionOf
  split
  · simp [*]
  · split
    · simp [*]
    · split <;> simp [*]

theorem regionOf_pagedRom {a : Word} : regionOf a = .pagedRom ↔ 0x8000 ≤ a.toNat ∧ a.toNat < 0xC000 := by
  unfold regionOf
  split
  · simp; omega
  · split
    · simp; omega
    · split <;> simp <;> omega

theorem regionOf_peripheral {a : Word} : regionOf a = .peripheral ↔ 0xFE00 ≤ a.toNat ∧ a.toNat < 0xFF00 := by
  unfold regionOf
  split
  · simp; omega
  · split
    · simp; omega
    · split <;> simp <;> omega

theorem regionOf_osRom {a : Word} :
    regionOf a = .osRom ↔ (0xC000 ≤ a.toNat ∧ a.toNat < 0xFE00) ∨ 0xFF00 ≤ a.toNat := by
  unfold regionOf
  split
  · simp; omega
  · split
    · simp; omega
    · split <;> simp <;> omega

theorem wordOf_toNat (lo hi : Byte) : (wordOf lo hi).toNat = lo.toNat + 256 * hi.toNat := by
  unfold wordOf
  rw [BitVec.toNat_append, Nat.shiftLeft_eq, Nat.mul_comm, Nat.add_comm lo.toNat]
  rw [show (2 ^ 8 * hi.toNat ||| lo.toNat) = 2 ^ 8 * hi.toNat + lo.toNat from
    (Nat.two_pow_add_eq_or_of_lt lo.isLt hi.toNat).symm]
  all_goals omega

theorem stackAddr_toNat (sp : Byte) : (stackAddr sp).toNat = 0x100 + sp.toNat := by
  rw [stackAddr, wordOf_toNat]; simp; omega

theorem zeroPage_toNat (z : Byte) : (zeroPage z).toNat = z.toNat := by
  rw [zeroPage, wordOf_toNat]; simp

@[simp] theorem regionOf_stackAddr (sp : Byte) : regionOf (stackAddr sp) = .ram := by
  rw [regionOf_ram, stackAddr_toNat]; have := sp.isLt; omega

@[simp] theorem regionOf_zeroPage (z : Byte) : regionOf (zeroPage z) = .ram := by
  rw [regionOf_ram, zeroPage_toNat]; have := z.isLt; omega

theorem stackAddr_injective {p q : Byte} (h : stackAddr p = stackAddr q) : p = q := by
  have := congrArg BitVec.toNat h
  rw [stackAddr_toNat, stackAddr_toNat] at this
  exact BitVec.eq_of_toNat_eq (by omega)

theorem QuietRead_of_region {a : Word} (h : regionOf a ≠ .peripheral) : QuietRead a := fun h' => absurd h' h

/-! ## The value of a byte -/

/-- The byte an address reads as depends on the memory, the ULA's registers and the keyboard alone. -/
theorem peek_congr {s t : State} (a : Word) (hr : t.ram = s.ram) (ho : t.osRom = s.osRom)
    (hp : t.pagedRoms = s.pagedRoms) (hg : t.page = s.page) (hk : t.keyboard = s.keyboard)
    (hs : t.sheila = s.sheila) (hi : t.intStatus = s.intStatus) (hm : t.enableMask = s.enableMask) :
    peek t a = peek s a := by
  simp [peek, ramByte, pagedRead, osRomByte, ulaValue, statusValue, pendingEnabled, hr, ho, hp, hg, hk, hs, hi, hm]

/-- Outside the peripheral window the ULA's registers do not matter. -/
theorem peek_congr_of_region {s t : State} (a : Word) (h : regionOf a ≠ .peripheral) (hr : t.ram = s.ram)
    (ho : t.osRom = s.osRom) (hp : t.pagedRoms = s.pagedRoms) (hg : t.page = s.page) (hk : t.keyboard = s.keyboard) :
    peek t a = peek s a := by
  unfold peek
  split <;> simp_all [ramByte, pagedRead, osRomByte]

@[simp] theorem peek_setA (s : State) (v : Byte) (a : Word) : peek (s.setA v) a = peek s a := rfl
@[simp] theorem peek_setX (s : State) (v : Byte) (a : Word) : peek (s.setX v) a = peek s a := rfl
@[simp] theorem peek_setY (s : State) (v : Byte) (a : Word) : peek (s.setY v) a = peek s a := rfl
@[simp] theorem peek_setSp (s : State) (v : Byte) (a : Word) : peek (s.setSp v) a = peek s a := rfl
@[simp] theorem peek_setP (s : State) (v : Byte) (a : Word) : peek (s.setP v) a = peek s a := rfl
@[simp] theorem peek_setPc (s : State) (v : Word) (a : Word) : peek (s.setPc v) a = peek s a := rfl
@[simp] theorem peek_setCycleTime (s : State) (n : Nat) (a : Word) : peek (s.setCycleTime n) a = peek s a := rfl
@[simp] theorem peek_setIrq (s : State) (b : Bool) (a : Word) : peek (s.setIrq b) a = peek s a := rfl
@[simp] theorem peek_setNmi (s : State) (b : Bool) (a : Word) : peek (s.setNmi b) a = peek s a := rfl
@[simp] theorem peek_setBpHit (s : State) (b : Bool) (a : Word) : peek (s.setBpHit b) a = peek s a := rfl
@[simp] theorem peek_setBreakpoint (s : State) (k : BreakpointKind) (v : Word) (a : Word) :
    peek (s.setBreakpoint k v) a = peek s a := rfl
@[simp] theorem peek_setCurrent (s : State) (v : Byte) (a : Word) : peek (s.setCurrent v) a = peek s a := rfl
@[simp] theorem peek_emit (s : State) (e : List OutputEvent) (a : Word) : peek (s.emit e) a = peek s a := rfl
@[simp] theorem peek_charge (n : Nat) (s : State) (a : Word) : peek (charge n s) a = peek s a := rfl

@[simp] theorem peek_setReg (r : Reg) (v : Byte) (s : State) (a : Word) : peek (setReg r v s) a = peek s a := by
  cases r <;> rfl

@[simp] theorem peek_setRegNZ (r : Reg) (v : Byte) (s : State) (a : Word) : peek (setRegNZ r v s) a = peek s a := by
  cases r <;> rfl

/-- A byte written to RAM is read back, and every other address reads as before. -/
theorem peek_setRam (s : State) (a b : Word) (v : Byte) (ha : regionOf a = .ram) :
    peek (s.setRam (Memory.set s.ram a.toNat v)) b = if b = a then v else peek s b := by
  by_cases h : b = a
  · subst h; simp [peek, ha, ramByte, Memory.get?_set]
  · have hn : b.toNat ≠ a.toNat := fun e => h (BitVec.eq_of_toNat_eq e)
    rw [if_neg h]
    by_cases hb : regionOf b = .ram
    · simp [peek, hb, ramByte, Memory.get?_set, hn]
    · unfold peek
      split
      · next h' => exact absurd h' hb
      all_goals rfl

/-! ## Checked accesses -/

/-- The breakpoint check changes the hit alone. -/
theorem checkBreakpoint_eq (k : BreakpointKind) (a : Word) (s : State) :
    checkBreakpoint k a s = s.setBpHit (s.bpHit || (s.bpKind == k && s.bpAddr == a)) := by
  unfold checkBreakpoint
  split
  · next h => simp [h.1, h.2]
  · next h =>
    have : (s.bpKind == k && s.bpAddr == a) = false := by
      rw [Bool.eq_false_iff]
      intro h'
      simp only [Bool.and_eq_true, beq_iff_eq] at h'
      exact h h'
    rw [this, Bool.or_false]
    rfl

theorem readEffect_of_region {a : Word} (h : regionOf a ≠ .peripheral) (s : State) : readEffect a s = s := by
  unfold readEffect
  split
  · next h' => exact absurd h' h
  · rfl

/-- A read with no side effect leaves the state. -/
theorem readEffect_of_quiet {a : Word} (h : QuietRead a) (s : State) : readEffect a s = s := by
  unfold readEffect
  split
  · next h' => simp [ulaReadEffect, (h h').1, (h h').2]
  · rfl

/-- The side effect of a read is on `int_status` and the IRQ level (60_exceptions.md R428, R429). -/
theorem readEffect_eq (a : Word) (s : State) :
    readEffect a s = (s.setIntStatus (readEffect a s).intStatus).setIrq (readEffect a s).irqPending := by
  unfold readEffect ulaReadEffect
  split
  · split
    · rfl
    · split <;> rfl
  · rfl

/-- A checked read, whole: the byte, then the side effect, then the check. -/
theorem read_eq (a : Word) (s : State) :
    read a s = (peek s a, (readEffect a s).setBpHit (s.bpHit || (s.bpKind == .onRead && s.bpAddr == a))) := by
  simp [read, machineRead, checkBreakpoint_eq]

/-- A checked read outside the peripheral window. -/
theorem read_of_region {a : Word} (h : regionOf a ≠ .peripheral) (s : State) :
    read a s = (peek s a, s.setBpHit (s.bpHit || (s.bpKind == .onRead && s.bpAddr == a))) := by
  rw [read_eq, readEffect_of_region h]

theorem read_of_quiet {a : Word} (h : QuietRead a) (s : State) :
    read a s = (peek s a, s.setBpHit (s.bpHit || (s.bpKind == .onRead && s.bpAddr == a))) := by
  rw [read_eq, readEffect_of_quiet h]

/-- With no read breakpoint set, a checked read is the machine's read. -/
theorem read_of_noBreakpoint {s : State} (h : s.bpKind ≠ .onRead) (a : Word) : read a s = (peek s a, readEffect a s) := by
  have hb : (s.bpKind == BreakpointKind.onRead) = false := by simpa using h
  rw [read_eq, hb, Bool.false_and, Bool.or_false]
  congr 1
  rw [← readEffect_bpHit a s]
  rfl

theorem write_eq (a : Word) (v : Byte) (s : State) :
    write a v s = (machineWrite a v s).setBpHit (s.bpHit || (s.bpKind == .onWrite && s.bpAddr == a)) := by
  simp [write, checkBreakpoint_eq]

theorem machineWrite_ram {a : Word} (h : regionOf a = .ram) (v : Byte) (s : State) :
    machineWrite a v s = s.setRam (Memory.set s.ram a.toNat v) := by
  simp [machineWrite, h]

theorem machineWrite_rom {a : Word} (h : regionOf a = .pagedRom ∨ regionOf a = .osRom) (v : Byte) (s : State) :
    machineWrite a v s = s := by
  rcases h with h | h <;> simp [machineWrite, h]

theorem machineWrite_peripheral {a : Word} (h : regionOf a = .peripheral) (v : Byte) (s : State) :
    machineWrite a v s = ulaWrite (ulaOffset a) v s := by
  simp [machineWrite, h]

/-- A checked write outside the peripheral window: what every address reads as afterwards. -/
theorem peek_write_of_region {a : Word} (h : regionOf a ≠ .peripheral) (v : Byte) (s : State) (b : Word) :
    peek (write a v s) b = if b = a ∧ regionOf a = .ram then v else peek s b := by
  rw [write_eq, peek_setBpHit]
  cases hr : regionOf a with
  | ram => rw [machineWrite_ram hr, peek_setRam s a b v hr]; simp
  | pagedRom => rw [machineWrite_rom (.inl hr)]; simp
  | osRom => rw [machineWrite_rom (.inr hr)]; simp
  | peripheral => exact absurd hr h

/-- The mode/control write by its two conditions (60_exceptions.md R434). -/
theorem writeControl_eq (v : Byte) (s : State) : writeControl v s =
    bif decide (commsMode s.sheila[7] ≠ 2 ∧ commsMode v = 2) then
      raiseCondition 5 ((bif decide (videoMode v ≠ videoMode s.sheila[7]) then
        emitPalette ((s.setSheila 7 v).emit [.videoSetMode (videoMode v)]) else s.setSheila 7 v).setHasData false)
    else bif decide (videoMode v ≠ videoMode s.sheila[7]) then
        emitPalette ((s.setSheila 7 v).emit [.videoSetMode (videoMode v)]) else s.setSheila 7 v := by
  simp only [writeControl, Bool.cond_decide]

/-- No write depends on P or changes it. -/
theorem machineWrite_setP (a : Word) (v q : Byte) (s : State) :
    machineWrite a v (s.setP q) = (machineWrite a v s).setP q := by
  unfold machineWrite
  split
  · rfl
  · unfold ulaWrite
    split
    · rfl
    · rfl
    · rfl
    · rw [writeControl_eq, writeControl_eq, State.setP_sheila]
      cases decide (commsMode s.sheila[7] ≠ 2 ∧ commsMode v = 2) <;>
        cases decide (videoMode v ≠ videoMode s.sheila[7]) <;> rfl
    · split <;> rfl
  · rfl
  · rfl

theorem write_setP (a : Word) (v q : Byte) (s : State) : write a v (s.setP q) = (write a v s).setP q := by
  rw [write_eq, write_eq, machineWrite_setP]
  rfl

/-! ## The stack -/

/-- Push, whole (47_stack.md R320). -/
theorem push_eq (v : Byte) (s : State) :
    push v s = ((s.setRam (Memory.set s.ram (stackAddr s.sp).toNat v)).setBpHit
      (s.bpHit || (s.bpKind == .onWrite && s.bpAddr == stackAddr s.sp))).setSp (s.sp - 1) := by
  simp [push, write_eq, machineWrite_ram]

/-- Pull, whole (R321). -/
theorem pull_eq (s : State) :
    pull s = (peek s (stackAddr (s.sp + 1)), (s.setSp (s.sp + 1)).setBpHit
      (s.bpHit || (s.bpKind == .onRead && s.bpAddr == stackAddr (s.sp + 1)))) := by
  simp [pull, read_of_region]

theorem peek_push (v : Byte) (s : State) (b : Word) :
    peek (push v s) b = if b = stackAddr s.sp then v else peek s b := by
  rw [push_eq, peek_setSp, peek_setBpHit, peek_setRam _ _ _ _ (regionOf_stackAddr _)]

@[simp] theorem push_sp (v : Byte) (s : State) : (push v s).sp = s.sp - 1 := by rw [push_eq]; rfl

@[simp] theorem pull_sp (s : State) : (pull s).2.sp = s.sp + 1 := by rw [pull_eq]; rfl

@[simp] theorem pull_val (s : State) : (pull s).1 = peek s (stackAddr (s.sp + 1)) := by rw [pull_eq]

@[simp] theorem peek_pull (s : State) (b : Word) : peek (pull s).2 b = peek s b := by rw [pull_eq]; rfl

/-- A push changes S, RAM and the breakpoint hit alone. -/
theorem push_unchanged (v : Byte) (s : State) : UnchangedBut [.sp, .ram, .bpHit] s (push v s) := by
  intro f hf
  rw [push_eq]
  cases f <;> simp [Same] at hf ⊢

/-- A pull changes S and the breakpoint hit alone. -/
theorem pull_unchanged (s : State) : UnchangedBut [.sp, .bpHit] s (pull s).2 := by
  intro f hf
  rw [pull_eq]
  cases f <;> simp [Same] at hf ⊢

/-- Changes compose. -/
theorem UnchangedBut.trans {fs gs : List Field} {s t u : State} (h : UnchangedBut fs s t) (h' : UnchangedBut gs t u) :
    UnchangedBut (fs ++ gs) s u := by
  intro f hf
  have h1 := h f (fun hm => hf (List.mem_append_left _ hm))
  have h2 := h' f (fun hm => hf (List.mem_append_right _ hm))
  cases f <;> simp_all [Same]

/-- A longer list of changes says less. -/
theorem UnchangedBut.mono {fs gs : List Field} {s t : State} (h : UnchangedBut fs s t) (hs : ∀ f, f ∈ fs → f ∈ gs) :
    UnchangedBut gs s t := fun f hf => h f (fun hm => hf (hs f hm))

/-- The bytes of a 16-bit push: the high byte at S, the low byte below it. -/
theorem peek_pushWord (w : Word) (s : State) (b : Word) :
    peek (pushWord w s) b = if b = stackAddr (s.sp - 1) then loByte w else if b = stackAddr s.sp then hiByte w else peek s b := by
  simp [pushWord, peek_push]

@[simp] theorem pushWord_sp (w : Word) (s : State) : (pushWord w s).sp = s.sp - 2 := by
  simp [pushWord, BitVec.sub_sub]

theorem pushWord_unchanged (w : Word) (s : State) : UnchangedBut [.sp, .ram, .bpHit] s (pushWord w s) :=
  ((push_unchanged (hiByte w) s).trans (push_unchanged (loByte w) _)).mono (by decide)

@[simp] theorem pullWord_val (s : State) :
    (pullWord s).1 = wordOf (peek s (stackAddr (s.sp + 1))) (peek s (stackAddr (s.sp + 2))) := by
  simp [pullWord, BitVec.add_assoc]

@[simp] theorem pullWord_sp (s : State) : (pullWord s).2.sp = s.sp + 2 := by
  simp [pullWord, BitVec.add_assoc]

@[simp] theorem peek_pullWord (s : State) (b : Word) : peek (pullWord s).2 b = peek s b := by
  simp [pullWord]

theorem pullWord_unchanged (s : State) : UnchangedBut [.sp, .bpHit] s (pullWord s).2 :=
  ((pull_unchanged s).trans (pull_unchanged _)).mono (by decide)

/-! ## Pairs, the exception entry and return -/

/-- A pair read outside the peripheral window: the value, and the state but for the breakpoint hit. -/
theorem readPair_of_region {lo hi : Word} (hl : regionOf lo ≠ .peripheral) (hh : regionOf hi ≠ .peripheral) (s : State) :
    readPair lo hi s = (wordOf (peek s lo) (peek s hi), s.setBpHit ((s.bpHit ||
      (s.bpKind == .onRead && s.bpAddr == lo)) || (s.bpKind == .onRead && s.bpAddr == hi))) := by
  simp [readPair, read_of_region hl, read_of_region hh]
  rfl

/-- Taking an exception through a vector in ROM: everything it does (60_exceptions.md R410, 48_control_flow.md R353). -/
theorem takeException_entry (vec ret : Word) (brk : Bool) (s : State) (h0 : regionOf vec = .osRom)
    (h1 : regionOf (vec + 1) = .osRom) : ExceptionEntry vec ret brk s (takeException vec ret brk s) := by
  have n0 : regionOf vec ≠ .peripheral := by rw [h0]; decide
  have n1 : regionOf (vec + 1#16) ≠ .peripheral := by
    have : regionOf (vec + 1#16) = .osRom := h1
    rw [this]; decide
  have r0 : ∀ q, vec ≠ stackAddr q := fun q e => by rw [e, regionOf_stackAddr] at h0; cases h0
  have r1 : ∀ q, vec + 1#16 ≠ stackAddr q := fun q e => by
    have h1' : regionOf (vec + 1#16) = .osRom := h1
    rw [e, regionOf_stackAddr] at h1'; cases h1'
  have e1 : ∀ q : Byte, q - 1#8 ≠ q := by decide
  have e2 : ∀ q : Byte, q - 2#8 ≠ q := by decide
  have e3 : ∀ q : Byte, q - 2#8 ≠ q - 1#8 := by decide
  have inj : ∀ p q : Byte, stackAddr p = stackAddr q ↔ p = q := fun p q => ⟨stackAddr_injective, congrArg _⟩
  have hk := pushWord_unchanged ret s
  have hp := hk .p (by decide)
  have hc := hk .cycleTime (by decide)
  simp only [Same] at hp hc
  have hv := readPair_of_region n0 n1
  constructor
  · simp [takeException, read16, BitVec.sub_sub]
  · simp [stackByte, takeException, read16, hv, peek_push, peek_pushWord, inj, fun q => (e1 q).symm,
      fun q => (e2 q).symm]
  · simp [stackByte, takeException, read16, hv, peek_push, peek_pushWord, inj, fun q => (e3 q).symm]
  · simp [stackByte, takeException, read16, hv, peek_push, pushedStatus, hp]
  · simp [takeException, read16, push_eq, hp]
  · simp [takeException, read16, hv, peek_push, peek_pushWord, r0, r1]
  · simp [takeException, read16, push_eq, charge, interruptCycles, hc]
  · intro a ha
    simp only [List.mem_cons, List.not_mem_nil, or_false, not_or] at ha
    obtain ⟨h0, h1, h2⟩ := ha
    change ¬a = stackAddr (s.sp - 1#8) at h1
    change ¬a = stackAddr (s.sp - 2#8) at h2
    simp [takeException, read16, hv, peek_push, peek_pushWord, h0, h1, h2]
  · intro f hf
    have hq := hk f
    cases f <;> simp [Same, takeException, read16, hv, push_eq, charge] at hf hq ⊢ <;> exact hq

/-- The exception return: everything it does (48_control_flow.md R354). -/
theorem returnFromInterrupt_eq (s : State) :
    (returnFromInterrupt s).p = peek s (stackAddr (s.sp + 1)) ∧
    (returnFromInterrupt s).pc = wordOf (peek s (stackAddr (s.sp + 2))) (peek s (stackAddr (s.sp + 3))) + 1 ∧
    (returnFromInterrupt s).sp = s.sp + 3 ∧ (∀ a, peek (returnFromInterrupt s) a = peek s a) ∧
    UnchangedBut [.p, .pc, .sp, .bpHit] s (returnFromInterrupt s) := by
  refine ⟨?_, ?_, ?_, ?_, ?_⟩
  · have := pullWord_unchanged ((pull s).2.setP (pull s).1) .p (by decide)
    simpa [Same, returnFromInterrupt] using this
  · simp [returnFromInterrupt, BitVec.add_assoc]
  · simp [returnFromInterrupt, BitVec.add_assoc]
  · simp [returnFromInterrupt]
  · intro f hf
    have h1 := pull_unchanged s f
    have h2 := pullWord_unchanged ((pull s).2.setP (pull s).1) f
    cases f <;> simp [Same, returnFromInterrupt] at hf h1 h2 ⊢ <;> simp [h1, h2]

end Sys2Proof.Machine
end

