-- ==== Sys2Proof/Laws/Operands.lean ====
section
/-! SUPPORT. What the addressing modes, operand reads and fetches do, said once. -/

namespace Sys2Proof.Machine

/-- A pointer read in page zero: the value, and the state but for the breakpoint hit. -/
theorem readPointer_eq (z : Byte) (s : State) :
    readPointer z s = (wordOf (peek s (zeroPage z)) (peek s (zeroPage (z + 1))), s.setBpHit ((s.bpHit ||
      (s.bpKind == .onRead && s.bpAddr == zeroPage z)) || (s.bpKind == .onRead && s.bpAddr == zeroPage (z + 1)))) := by
  unfold readPointer
  exact readPair_of_region (by rw [regionOf_zeroPage]; decide) (by rw [regionOf_zeroPage]; decide) s

/-- An addressing mode changes the breakpoint hit alone, and that only under a read breakpoint. -/
theorem address_st (m : AddrMode) (s : State) :
    ∃ b, (address m s).st = s.setBpHit b ∧ (s.bpKind ≠ .onRead → b = s.bpHit) := by
  have key : ∀ z, s.bpKind ≠ .onRead → (s.bpHit ||
      (s.bpKind == .onRead && s.bpAddr == zeroPage z) || (s.bpKind == .onRead && s.bpAddr == zeroPage (z + 1))) = s.bpHit := by
    intro z h
    have hb : (s.bpKind == BreakpointKind.onRead) = false := by simpa using h
    simp [hb]
  cases m with
  | izx z => exact ⟨_, by simp only [address, readPointer_eq], key (z + s.x)⟩
  | izy z => exact ⟨_, by simp only [address, readPointer_eq], key z⟩
  | _ => exact ⟨s.bpHit, rfl, fun _ => rfl⟩

/-- The breakpoint hit of a state changes no effect of a read but itself. -/
theorem readEffect_setBpHit (a : Word) (b : Bool) (s : State) :
    readEffect a (s.setBpHit b) = (readEffect a s).setBpHit b := by
  unfold readEffect ulaReadEffect
  split
  · split
    · rfl
    · split <;> rfl
  · rfl

/-- A memory operand's read, whole: the byte at EA, the side effect of one read there, and the breakpoint hit. -/
theorem readOperand_mem (m : AddrMode) (s : State) :
    (readOperand (.mem m) s).val = peek s (address m s).ea ∧
    (readOperand (.mem m) s).crossed = (address m s).crossed ∧
    ∃ b, (readOperand (.mem m) s).st = (readEffect (address m s).ea s).setBpHit b ∧
      (s.bpKind ≠ .onRead → b = s.bpHit) := by
  obtain ⟨b, hb, hn⟩ := address_st m s
  refine ⟨?_, rfl, ?_⟩
  · simp [readOperand, read_eq, hb]
  · refine ⟨_, by simp only [readOperand, read_eq, hb, readEffect_setBpHit]; rfl, ?_⟩
    intro h
    have hk : (s.bpKind == BreakpointKind.onRead) = false := by simpa using h
    simp [hn h, hk]

/-- An operand read of either kind leaves every field alone but the hit, `int_status` and the IRQ level. -/
theorem readOperand_unchanged (x : Source) (s : State) :
    UnchangedBut [.bpHit, .intStatus, .irqPending] s (readOperand x s).st := by
  intro f hf
  cases x with
  | imm i => cases f <;> rfl
  | mem m =>
    obtain ⟨-, -, b, hb, -⟩ := readOperand_mem m s
    rw [hb]
    cases f <;> simp [Same] at hf ⊢

/-- The state after a fetch: PC advanced, and one checked read made. -/
theorem fetchByte_eq (s : State) :
    fetchByte s = (peek s s.pc, ((readEffect s.pc s).setBpHit
      (s.bpHit || (s.bpKind == .onRead && s.bpAddr == s.pc))).setPc (s.pc + 1)) := by
  simp [fetchByte, read_eq]

/-- A read changes what another address reads as only where both are peripheral registers, the one read at offset 0 or 4 and
the other at offset 0. -/
theorem peek_readEffect (a b : Word) (s : State)
    (h : regionOf a = .peripheral → regionOf b = .peripheral → ulaOffset b = 0 → ulaOffset a ≠ 0 ∧ ulaOffset a ≠ 4) :
    peek (readEffect a s) b = peek s b := by
  by_cases ha : regionOf a = .peripheral
  · by_cases hb : regionOf b = .peripheral
    · by_cases ho : ulaOffset b = 0
      · rw [readEffect_of_quiet (fun _ => h ha hb ho)]
      · have key : ∀ t : State, t.sheila = s.sheila → t.osRom = s.osRom → peek t b = peek s b := by
          intro t h1 h2
          simp [peek, hb, ulaValue, ho, osRomByte, h1, h2]
        exact key _ (by simp) (by simp)
    · exact peek_congr_of_region b hb (by simp) (by simp) (by simp) (by simp) (by simp)
  · rw [readEffect_of_region ha]

theorem ulaOffset_val (a : Word) : (ulaOffset a).val = a.toNat % 16 := rfl

/-- The next two bytes read as before after a read of a byte. -/
theorem peek_readEffect_next (a : Word) (s : State) (k : Nat) (hk : k = 1 ∨ k = 2) :
    peek (readEffect a s) (a + BitVec.ofNat 16 k) = peek s (a + BitVec.ofNat 16 k) := by
  apply peek_readEffect
  intro h1 h2 h3
  have h3 := congrArg Fin.val h3
  rw [ulaOffset_val] at h3
  rw [regionOf_peripheral] at h1 h2
  have e : (a + BitVec.ofNat 16 k).toNat = a.toNat + k := by
    rw [BitVec.toNat_add]
    rcases hk with rfl | rfl <;> simp <;> omega
  rw [e] at h3
  have h3' : (a.toNat + k) % 16 = 0 := h3
  constructor <;> intro hh <;> have hv := congrArg Fin.val hh <;> rw [ulaOffset_val] at hv
  · have hv' : a.toNat % 16 = 0 := hv
    omega
  · have hv' : a.toNat % 16 = 4 := hv
    omega

@[simp] theorem fetchByte_val (s : State) : (fetchByte s).1 = peek s s.pc := by rw [fetchByte_eq]

@[simp] theorem fetchByte_pc (s : State) : (fetchByte s).2.pc = s.pc + 1 := by rw [fetchByte_eq]; rfl

/-- A fetch changes PC and what a read changes. -/
theorem fetchByte_unchanged (s : State) : UnchangedBut [.pc, .bpHit, .intStatus, .irqPending] s (fetchByte s).2 := by
  intro f hf
  rw [fetchByte_eq]
  cases f <;> simp [Same] at hf ⊢

/-- A fetch at an address whose read has no side effect changes PC and the breakpoint hit. -/
theorem fetchByte_quiet (s : State) (h : QuietRead s.pc) : UnchangedBut [.pc, .bpHit] s (fetchByte s).2 := by
  intro f hf
  rw [fetchByte_eq, readEffect_of_quiet h]
  cases f <;> simp [Same] at hf ⊢

/-- With no read breakpoint set, a fetch leaves the breakpoint hit. -/
theorem fetchByte_bpHit (s : State) (h : s.bpKind ≠ .onRead) : (fetchByte s).2.bpHit = s.bpHit := by
  have hk : (s.bpKind == BreakpointKind.onRead) = false := by simpa using h
  simp [fetchByte_eq, hk]

/-- The two bytes after the one fetched read as before. -/
theorem peek_fetchByte_next (s : State) (k : Nat) (hk : k = 1 ∨ k = 2) :
    peek (fetchByte s).2 (s.pc + BitVec.ofNat 16 k) = peek s (s.pc + BitVec.ofNat 16 k) := by
  rw [fetchByte_eq]
  exact peek_readEffect_next s.pc s k hk

/-- The bytes of an address are read in the same way after a fetch as before it, but in the peripheral window. -/
theorem peek_fetchByte (s : State) (a : Word) (h : regionOf a ≠ .peripheral) : peek (fetchByte s).2 a = peek s a := by
  rw [fetchByte_eq]
  exact peek_congr_of_region a h (by simp) (by simp) (by simp) (by simp) (by simp)

end Sys2Proof.Machine
end

