-- ==== Sys2Proof/Laws/Dispatch.lean ====
section
/-! SUPPORT. Each family's opcodes run its one shared operation, at the base cost of the addressing mode: the lemmas that take a
statement about a mnemonic to the operation. -/

namespace Sys2Proof.Machine

set_option maxRecDepth 4000

theorem exec_load {i : Instr} {r : Reg} {x : Source}
    (hm : (i.mnemonic, r) ∈ [(Mnemonic.lda, Reg.a), (.ldx, .x), (.ldy, .y)]) (ho : i.operand = .source x) (s : State) :
    exec i s = .next (load r x (modeCycles x false) s) := by
  simp only [List.mem_cons, Prod.mk.injEq, List.not_mem_nil, or_false] at hm
  obtain ⟨hm, rfl⟩ | ⟨hm, rfl⟩ | ⟨hm, rfl⟩ := hm <;> cases i <;> first
    | (cases hm; done)
    | (cases ho; rfl)

theorem exec_store {i : Instr} {r : Reg} {m : AddrMode}
    (hm : (i.mnemonic, r) ∈ [(Mnemonic.sta, Reg.a), (.stx, .x), (.sty, .y)]) (ho : i.operand = .source (.mem m))
    (s : State) : exec i s = .next (store r m (modeCycles (.mem m) false) s) := by
  simp only [List.mem_cons, Prod.mk.injEq, List.not_mem_nil, or_false] at hm
  obtain ⟨hm, rfl⟩ | ⟨hm, rfl⟩ | ⟨hm, rfl⟩ := hm <;> cases i <;> first
    | (cases hm; done)
    | (cases ho; rfl)

theorem exec_adc {i : Instr} {x : Source} (hm : i.mnemonic = .adc) (ho : i.operand = .source x) (s : State) :
    exec i s = .next (addWithCarry x (modeCycles x false) s) := by
  cases i <;> first
    | (cases hm; done)
    | (cases ho; rfl)

theorem exec_sbc {i : Instr} {x : Source} (hm : i.mnemonic = .sbc) (ho : i.operand = .source x) (s : State) :
    exec i s = .next (subtractWithBorrow x (modeCycles x false) s) := by
  cases i <;> first
    | (cases hm; done)
    | (cases ho; rfl)

theorem exec_compare {i : Instr} {r : Reg} {x : Source}
    (hm : (i.mnemonic, r) ∈ [(Mnemonic.cmp, Reg.a), (.cpx, .x), (.cpy, .y)]) (ho : i.operand = .source x) (s : State) :
    exec i s = .next (compare r x (modeCycles x false) s) := by
  simp only [List.mem_cons, Prod.mk.injEq, List.not_mem_nil, or_false] at hm
  obtain ⟨hm, rfl⟩ | ⟨hm, rfl⟩ | ⟨hm, rfl⟩ := hm <;> cases i <;> first
    | (cases hm; done)
    | (cases ho; rfl)

theorem exec_and {i : Instr} {x : Source} (hm : i.mnemonic = .and) (ho : i.operand = .source x) (s : State) :
    exec i s = .next (logical (· &&& ·) x (modeCycles x false) s) := by
  cases i <;> first
    | (cases hm; done)
    | (cases ho; rfl)

theorem exec_ora {i : Instr} {x : Source} (hm : i.mnemonic = .ora) (ho : i.operand = .source x) (s : State) :
    exec i s = .next (logical (· ||| ·) x (modeCycles x false) s) := by
  cases i <;> first
    | (cases hm; done)
    | (cases ho; rfl)

theorem exec_eor {i : Instr} {x : Source} (hm : i.mnemonic = .eor) (ho : i.operand = .source x) (s : State) :
    exec i s = .next (logical (· ^^^ ·) x (modeCycles x false) s) := by
  cases i <;> first
    | (cases hm; done)
    | (cases ho; rfl)

theorem exec_bit {i : Instr} {x : Source} (hm : i.mnemonic = .bit) (ho : i.operand = .source x) (s : State) :
    exec i s = .next (bitTest x (modeCycles x false) s) := by
  cases i <;> first
    | (cases hm; done)
    | (cases ho; rfl)

theorem exec_readModifyWrite {i : Instr} {f : Byte → Byte → Byte × Byte} {m : AddrMode}
    (hm : (i.mnemonic = .asl ∧ f = aslFn) ∨ (i.mnemonic = .lsr ∧ f = lsrFn) ∨ (i.mnemonic = .rol ∧ f = rolFn) ∨
      (i.mnemonic = .ror ∧ f = rorFn) ∨ (i.mnemonic = .inc ∧ f = incFn) ∨ (i.mnemonic = .dec ∧ f = decFn))
    (ho : i.operand = .source (.mem m)) (s : State) : exec i s = .next (readModifyWrite f m (rmwCycles m) s) := by
  obtain ⟨hm, rfl⟩ | ⟨hm, rfl⟩ | ⟨hm, rfl⟩ | ⟨hm, rfl⟩ | ⟨hm, rfl⟩ | ⟨hm, rfl⟩ := hm <;> cases i <;> first
    | (cases hm; done)
    | (cases ho; done)
    | (cases ho; rfl)

theorem exec_undefined {i : Instr} (hm : i.mnemonic = .undefined) (s : State) :
    exec i s = .next (undefinedOpcode s) := by
  cases i <;> first
    | (cases hm; done)
    | rfl

theorem exec_branch {i : Instr} {d : Byte} (ho : i.operand = .relative d) (s : State) :
    exec i s = .next (branch (branchFlag i.opcode) (i.opcode.getLsbD 5) d s) := by
  cases i <;> first
    | (cases ho; done)
    | (cases ho; simp only [Instr.opcode]; rfl)

end Sys2Proof.Machine
end

