-- ==== Sys2Proof/Laws/Families.lean ====
section
/-! SUPPORT. What each family's shared operation can change, said once: the lemmas behind every frame statement. -/

namespace Sys2Proof.Machine

/-- What an instruction may do from `s` to `t`: the registers and flags of its lists, the bytes it stores, 2 to 7 cycles, and of
the rest only what its accesses change; `data` are the addresses of its accesses outside the stack and the vectors. -/
structure Effect (regs : List Field) (fl : List Flag) (stored data : List Word) (log : Bool) (s t : State) : Prop where
  flags : FlagsUnchangedBut fl s.p t.p
  cost : s.cycleTime + 2 ≤ t.cycleTime ∧ t.cycleTime ≤ s.cycleTime + 7
  fields : UnchangedBut (regs ++ [.p, .pc, .cycleTime, .bpHit, .ram, .page, .sheila, .intStatus, .enableMask,
    .irqPending, .dataShiftHasData, .output]) s t
  quiet : (∀ a, a ∈ data → OutsideUla a) →
    UnchangedBut (regs ++ [.p, .pc, .cycleTime, .bpHit, .ram] ++ if log then [.output] else []) s t
  ram : ∀ a : Word, a.toNat < 0x8000 → a ∉ stored → peek t a = peek s a
  bytes : (∀ a, a ∈ data → OutsideUla a) → ∀ a, a ∉ stored → peek t a = peek s a

theorem FlagsUnchangedBut.refl (fs : List Flag) (p : Byte) : FlagsUnchangedBut fs p p := fun _ _ => rfl

theorem UnchangedBut.refl (fs : List Field) (s : State) : UnchangedBut fs s s := by
  intro f _; cases f <;> rfl

theorem setNZ_flags (v p : Byte) : FlagsUnchangedBut [.n, .z] p (setNZ v p) := by
  intro f hf
  simp only [List.mem_cons, List.not_mem_nil, or_false, not_or] at hf
  simp [getFlag_setNZ, hf]

theorem aluFlags_flags (r : AluResult) (p : Byte) : FlagsUnchangedBut [.n, .v, .z, .c] p (r.flags p) := by
  intro f hf
  simp only [List.mem_cons, List.not_mem_nil, or_false, not_or] at hf
  simp [getFlag_aluFlags, hf]

theorem compareFlags_flags (r m p : Byte) : FlagsUnchangedBut [.n, .v, .z, .c] p (compareFlags compareWritesV r m p) := by
  intro f hf
  simp only [List.mem_cons, List.not_mem_nil, or_false, not_or] at hf
  simp [getFlag_compareFlags, hf]

theorem bitFlags_flags (a m p : Byte) : FlagsUnchangedBut [.n, .v, .z] p (bitFlags a m p) := by
  intro f hf
  simp only [List.mem_cons, List.not_mem_nil, or_false, not_or] at hf
  simp [getFlag_bitFlags, hf]

theorem putFlag_flags (p : Byte) (f : Flag) (b : Bool) : FlagsUnchangedBut [f] p (putFlag p f b) := by
  intro g hg
  simp only [List.mem_cons, List.not_mem_nil, or_false] at hg
  simp [getFlag_putFlag, hg]

theorem UnchangedBut.charge {fs : List Field} {s t : State} (h : UnchangedBut fs s t) (n : Nat) (hc : .cycleTime ∈ fs) :
    UnchangedBut fs s (charge n t) := by
  intro f hf
  have := h f hf
  cases f <;> first
    | exact absurd hc hf
    | simpa [Same, Machine.charge] using this

theorem UnchangedBut.setP {fs : List Field} {s t : State} (h : UnchangedBut fs s t) (q : Byte) (hp : .p ∈ fs) :
    UnchangedBut fs s (t.setP q) := by
  intro f hf
  have := h f hf
  cases f <;> first
    | exact absurd hp hf
    | simpa [Same] using this

theorem UnchangedBut.setReg {fs : List Field} {s t : State} (h : UnchangedBut fs s t) (r : Reg) (v : Byte)
    (hr : r.field ∈ fs) : UnchangedBut fs s (setReg r v t) := by
  intro f hf
  have := h f hf
  cases r <;> cases f <;> first
    | exact absurd hr hf
    | simpa [Same, Machine.setReg] using this

/-! ## After an operand read -/

/-- The addresses an operand read reaches outside pages 0 and the immediate byte. -/
theorem readOperand_quiet (x : Source) (s : State) (h : ∀ m, x = .mem m → OutsideUla (address m s).ea) :
    UnchangedBut [.bpHit] s (readOperand x s).st := by
  intro f hf
  cases x with
  | imm i => cases f <;> rfl
  | mem m =>
    obtain ⟨-, -, b, hb, -⟩ := readOperand_mem m s
    rw [hb, readEffect_of_region (h m rfl)]
    cases f <;> simp [Same] at hf ⊢

/-- RAM reads as before after an operand read. -/
theorem peek_readOperand_ram (x : Source) (s : State) (a : Word) (ha : a.toNat < 0x8000) :
    peek (readOperand x s).st a = peek s a := by
  have h := readOperand_unchanged x s
  apply peek_congr_of_region a (by rw [regionOf_ram.2 ha]; decide)
  · exact h .ram (by decide)
  · exact h .osRom (by decide)
  · exact h .pagedRoms (by decide)
  · exact h .page (by decide)
  · exact h .keyboard (by decide)

/-- Every byte reads as before where nothing but registers, P, PC, the time and the hit changed. -/
theorem peek_of_unchanged {fs : List Field} {s t : State} (h : UnchangedBut fs s t)
    (hf : ∀ f, f ∈ [Field.ram, .osRom, .pagedRoms, .page, .keyboard, .sheila, .intStatus, .enableMask] → f ∉ fs)
    (a : Word) : peek t a = peek s a :=
  peek_congr a (h .ram (hf _ (by decide))) (h .osRom (hf _ (by decide))) (h .pagedRoms (hf _ (by decide)))
    (h .page (hf _ (by decide))) (h .keyboard (hf _ (by decide))) (h .sheila (hf _ (by decide)))
    (h .intStatus (hf _ (by decide))) (h .enableMask (hf _ (by decide)))

/-- RAM reads as before where RAM and the ROMs are as before. -/
theorem peek_ram_of_unchanged {fs : List Field} {s t : State} (h : UnchangedBut fs s t) (hf : Field.ram ∉ fs)
    (a : Word) (ha : a.toNat < 0x8000) : peek t a = peek s a := by
  have hr := regionOf_ram.2 ha
  have hram := h .ram hf
  simp only [Same] at hram
  simp [peek, hr, ramByte, hram]

/-- An instruction that reads an operand and then writes one register or none, and P. -/
theorem reading_effect {regs : List Field} {fl : List Flag} (x : Source) (s : State) (n : Nat) (v q : Byte) (r : Option Reg)
    (hr : ∀ k, r = some k → k.field ∈ regs) (hn : 2 ≤ n ∧ n ≤ 7)
    (hq : FlagsUnchangedBut fl (readOperand x s).st.p q) :
    Effect regs fl [] (sourceAddresses x s) false s
      (charge n ((match r with | some k => setReg k v (readOperand x s).st | none => (readOperand x s).st).setP q)) := by
  have hu := readOperand_unchanged x s
  have hx : (∀ a, a ∈ (sourceAddresses x s) → OutsideUla a) →
      UnchangedBut [.bpHit] s (readOperand x s).st := by
    intro h
    apply readOperand_quiet
    intro m hm
    subst hm
    exact h _ (by simp [sourceAddresses])
  have hstep : ∀ fs, UnchangedBut fs s (readOperand x s).st → .p ∈ fs → .cycleTime ∈ fs →
      (∀ f, f ∈ regs → f ∈ fs) → UnchangedBut fs s
        (charge n ((match r with | some k => setReg k v (readOperand x s).st | none => (readOperand x s).st).setP q)) := by
    intro fs h1 h2 h3 h4
    apply UnchangedBut.charge _ _ h3
    apply UnchangedBut.setP _ _ h2
    cases r with
    | none => exact h1
    | some k => exact h1.setReg k v (h4 _ (hr k rfl))
  have hpk : ∀ a, peek (charge n ((match r with
      | some k => setReg k v (readOperand x s).st | none => (readOperand x s).st).setP q)) a =
      peek (readOperand x s).st a := by
    intro a; cases r <;> simp
  constructor
  · have hp : (readOperand x s).st.p = s.p := hu .p (by decide)
    rw [hp] at hq
    exact hq
  · have hc : (readOperand x s).st.cycleTime = s.cycleTime := hu .cycleTime (by decide)
    have he : ∀ t : State, (charge n t).cycleTime = t.cycleTime + n := fun _ => rfl
    have hs : (match r with | some k => setReg k v (readOperand x s).st | none => (readOperand x s).st).cycleTime =
        s.cycleTime := by
      cases r with
      | none => exact hc
      | some k => cases k <;> exact hc
    rw [he, State.setP_cycleTime, hs]
    omega
  · apply hstep
    · exact hu.mono (by intro f hf; simp at hf ⊢; rcases hf with h | h | h <;> simp [h])
    · simp
    · simp
    · intro f hf; exact List.mem_append_left _ hf
  · intro h
    apply hstep
    · exact (hx h).mono (by intro f hf; simp at hf ⊢; simp [hf])
    · simp
    · simp
    · intro f hf; simp [hf]
  · intro a ha _
    rw [hpk, peek_readOperand_ram x s a ha]
  · intro h a _
    rw [hpk]
    exact peek_of_unchanged (hx h) (by decide) a

theorem readCost_bounds (base : Nat) (c : Bool) (h : 2 ≤ base ∧ base ≤ 6) : 2 ≤ readCost base c ∧ readCost base c ≤ 7 := by
  cases c <;> simp [readCost] <;> omega

theorem load_effect (r : Reg) (x : Source) (base : Nat) (s : State) (hb : 2 ≤ base ∧ base ≤ 6) :
    Effect [r.field] [.n, .z] [] (sourceAddresses x s) false s
      (load r x base s) := by
  have h := reading_effect (regs := [r.field]) (fl := [.n, .z]) x s (readCost base (readOperand x s).crossed)
    (readOperand x s).val (setNZ (readOperand x s).val (readOperand x s).st.p) (some r)
    (by intro k hk; cases hk; simp) (readCost_bounds _ _ hb) (setNZ_flags _ _)
  cases r <;> exact h

theorem logical_effect (f : Byte → Byte → Byte) (x : Source) (base : Nat) (s : State) (hb : 2 ≤ base ∧ base ≤ 6) :
    Effect [.a] [.n, .z] [] (sourceAddresses x s) false s
      (logical f x base s) :=
  reading_effect (regs := [.a]) (fl := [.n, .z]) x s (readCost base (readOperand x s).crossed)
    (f (readOperand x s).st.a (readOperand x s).val)
    (setNZ (f (readOperand x s).st.a (readOperand x s).val) (readOperand x s).st.p) (some .a)
    (by intro k hk; cases hk; simp [Reg.field]) (readCost_bounds _ _ hb) (setNZ_flags _ _)

theorem addWithCarry_effect (x : Source) (base : Nat) (s : State) (hb : 2 ≤ base ∧ base ≤ 6) :
    Effect [.a] [.n, .v, .z, .c] [] (sourceAddresses x s) false s
      (addWithCarry x base s) :=
  reading_effect (regs := [.a]) (fl := [.n, .v, .z, .c]) x s _ _ _ (some .a)
    (by intro k hk; cases hk; simp [Reg.field]) (readCost_bounds _ _ hb) (aluFlags_flags _ _)

theorem subtractWithBorrow_effect (x : Source) (base : Nat) (s : State) (hb : 2 ≤ base ∧ base ≤ 6) :
    Effect [.a] [.n, .v, .z, .c] [] (sourceAddresses x s) false s
      (subtractWithBorrow x base s) :=
  reading_effect (regs := [.a]) (fl := [.n, .v, .z, .c]) x s _ _ _ (some .a)
    (by intro k hk; cases hk; simp [Reg.field]) (readCost_bounds _ _ hb) (aluFlags_flags _ _)

theorem compare_effect (r : Reg) (x : Source) (base : Nat) (s : State) (hb : 2 ≤ base ∧ base ≤ 6) :
    Effect [] [.n, .v, .z, .c] [] (sourceAddresses x s) false s
      (compare r x base s) :=
  reading_effect (regs := []) (fl := [.n, .v, .z, .c]) x s _ 0 _ none
    (by intro k hk; cases hk) (readCost_bounds _ _ hb) (compareFlags_flags _ _ _)

theorem bitTest_effect (x : Source) (base : Nat) (s : State) (hb : 2 ≤ base ∧ base ≤ 6) :
    Effect [] [.n, .v, .z] [] (sourceAddresses x s) false s
      (bitTest x base s) :=
  reading_effect (regs := []) (fl := [.n, .v, .z]) x s _ 0 _ none
    (by intro k hk; cases hk) (readCost_bounds _ _ hb) (bitFlags_flags _ _ _)

/-! ## Writes -/

/-- What a checked write changes. -/
theorem write_unchanged (a : Word) (v : Byte) (s : State) :
    UnchangedBut [.ram, .page, .sheila, .intStatus, .enableMask, .irqPending, .dataShiftHasData, .output, .bpHit] s
      (write a v s) := by
  intro f hf
  cases f <;> simp [Same] at hf ⊢

/-- What a checked write outside the peripheral window changes. -/
theorem write_unchanged_of_region {a : Word} (h : regionOf a ≠ .peripheral) (v : Byte) (s : State) :
    UnchangedBut [.ram, .bpHit] s (write a v s) := by
  intro f hf
  rw [write_eq]
  cases hr : regionOf a with
  | ram => rw [machineWrite_ram hr]; cases f <;> simp [Same] at hf ⊢
  | pagedRom => rw [machineWrite_rom (.inl hr)]; cases f <;> simp [Same] at hf ⊢
  | osRom => rw [machineWrite_rom (.inr hr)]; cases f <;> simp [Same] at hf ⊢
  | peripheral => exact absurd hr h

/-- A checked write changes no byte of RAM but the one it stores. -/
theorem peek_write_ram (a : Word) (v : Byte) (s : State) (b : Word) (hb : b.toNat < 0x8000) (h : b ≠ a) :
    peek (write a v s) b = peek s b := by
  by_cases hr : regionOf a = .peripheral
  · have hram : (write a v s).ram = s.ram := by
      rw [write_eq, machineWrite_peripheral hr]
      simp
    simp [peek, regionOf_ram.2 hb, ramByte, hram]
  · rw [peek_write_of_region hr]
    simp [h]

/-- An instruction that computes an address, may read there, writes one byte there and then P. -/
theorem writing_effect {fl : List Flag} (m : AddrMode) (s t : State) (n : Nat) (v q q' : Byte)
    (hu : UnchangedBut [.bpHit, .intStatus, .irqPending] s t)
    (hq : (∀ a, a ∈ sourceAddresses (.mem m) s → OutsideUla a) → UnchangedBut [.bpHit] s t)
    (hn : 2 ≤ n ∧ n ≤ 7) (hf : FlagsUnchangedBut fl s.p q') :
    Effect [] fl [(address m s).ea] (sourceAddresses (.mem m) s) false s
      (charge n ((write (address m s).ea v (t.setP q)).setP q')) := by
  have hout : (∀ a, a ∈ sourceAddresses (.mem m) s → OutsideUla a) → regionOf (address m s).ea ≠ .peripheral :=
    fun h => h _ (by simp [sourceAddresses])
  constructor
  · exact hf
  · have hc : t.cycleTime = s.cycleTime := hu .cycleTime (by decide)
    have he : ∀ u : State, (charge n u).cycleTime = u.cycleTime + n := fun _ => rfl
    rw [he, State.setP_cycleTime, write_cycleTime, State.setP_cycleTime, hc]
    omega
  · exact ((((hu.mono (gs := [.p, .bpHit, .intStatus, .irqPending, .cycleTime]) (by decide)).setP q (by decide)).trans
      (write_unchanged _ _ _)).setP q' (by decide)).charge n (by decide) |>.mono (by decide)
  · intro h
    exact (((((hq h).mono (gs := [.p, .bpHit, .cycleTime]) (by decide)).setP q (by decide)).trans
      (write_unchanged_of_region (hout h) _ _)).setP q' (by decide)).charge n (by decide) |>.mono (by decide)
  · intro a ha hs
    have hne : a ≠ (address m s).ea := by simpa using hs
    rw [peek_charge, peek_setP, peek_write_ram _ _ _ _ ha hne, peek_setP]
    exact peek_ram_of_unchanged hu (by decide) a ha
  · intro h a hs
    have hne : a ≠ (address m s).ea := by simpa using hs
    rw [peek_charge, peek_setP, peek_write_of_region (hout h), peek_setP, if_neg (fun hh => hne hh.1)]
    exact peek_of_unchanged (hq h) (by decide) a

theorem address_unchanged (m : AddrMode) (s : State) : UnchangedBut [.bpHit] s (address m s).st := by
  obtain ⟨b, hb, -⟩ := address_st m s
  rw [hb]
  intro f hf
  cases f <;> simp [Same] at hf ⊢

theorem writeCost_bounds (timing : StoreTiming) (base : Nat) (m : AddrMode) (c : Bool) (h : 2 ≤ base ∧ base ≤ 6) :
    2 ≤ writeCost timing base m c ∧ writeCost timing base m c ≤ 7 := by
  cases timing
  · exact readCost_bounds base c h
  · simp only [writeCost]
    cases pageIndexed m <;> simp <;> omega

theorem store_effect (r : Reg) (m : AddrMode) (base : Nat) (s : State) (hb : 2 ≤ base ∧ base ≤ 6) :
    Effect [] [] [(address m s).ea] (sourceAddresses (.mem m) s) false s (store r m base s) := by
  have hu := address_unchanged m s
  have hp : (address m s).st.p = s.p := hu .p (by decide)
  have h := writing_effect (fl := []) m s (address m s).st
    (writeCost indexedStoreTiming base m (address m s).crossed) (getReg r (address m s).st) (address m s).st.p s.p
    (hu.mono (by decide)) (fun _ => hu) (writeCost_bounds _ _ _ _ hb) (FlagsUnchangedBut.refl _ _)
  have e : charge (writeCost indexedStoreTiming base m (address m s).crossed)
      ((write (address m s).ea (getReg r (address m s).st)
        ((address m s).st.setP (address m s).st.p)).setP s.p) = store r m base s := by
    unfold store
    congr 1
    rw [write_setP, ← hp]
    have : (write (address m s).ea (getReg r (address m s).st) (address m s).st).p = (address m s).st.p := by simp
    rw [show ∀ u : State, (u.setP (address m s).st.p).setP (address m s).st.p = u.setP (address m s).st.p from
      fun _ => rfl, ← this]
    rfl
  rw [e] at h
  exact h

/-- The flags a modifying function writes besides N and Z. -/
theorem readModifyWrite_effect (f : Byte → Byte → Byte × Byte) (fl : List Flag) (m : AddrMode) (cost : Nat) (s : State)
    (hc : 2 ≤ cost ∧ cost ≤ 7) (hf : ∀ v p, FlagsUnchangedBut fl p (setNZ (f v p).1 (f v p).2)) :
    Effect [] fl [(address m s).ea] (sourceAddresses (.mem m) s) false s (readModifyWrite f m cost s) := by
  have hr := readOperand_unchanged (.mem m) s
  have hp : (readOperand (.mem m) s).st.p = s.p := hr .p (by decide)
  let w := f (readOperand (.mem m) s).val s.p
  have h := writing_effect (fl := fl) m s (readOperand (.mem m) s).st cost w.1 w.2 (setNZ w.1 w.2)
    hr (fun h => readOperand_quiet _ _ (by intro k hk; cases hk; exact h _ (by simp [sourceAddresses])))
    hc (hf _ _)
  have e : charge cost ((write (address m s).ea w.1 ((readOperand (.mem m) s).st.setP w.2)).setP (setNZ w.1 w.2)) =
      readModifyWrite f m cost s := by
    have hv : readModifyWrite f m cost s =
        (let o := f (readOperand (.mem m) s).val (readOperand (.mem m) s).st.p
         let t := write (address m s).ea o.1 ((readOperand (.mem m) s).st.setP o.2)
         charge cost (t.setP (setNZ o.1 t.p))) := rfl
    rw [hv, hp]
    simp [w]
  rw [e] at h
  exact h

/-! ## Registers, P, the stack and jumps -/

/-- An instruction that makes no access: it writes registers, P, PC, the output and the time. -/
theorem plain_effect {regs : List Field} {fl : List Flag} {log : Bool} (s t : State)
    (hu : UnchangedBut (regs ++ [.p, .pc, .cycleTime] ++ if log then [.output] else []) s t)
    (hm : ∀ f, f ∈ [Field.ram, .osRom, .pagedRoms, .page, .keyboard, .sheila, .intStatus, .enableMask] → f ∉ regs)
    (hf : FlagsUnchangedBut fl s.p t.p) (hc : s.cycleTime + 2 ≤ t.cycleTime ∧ t.cycleTime ≤ s.cycleTime + 7) :
    Effect regs fl [] [] log s t := by
  have hk : ∀ a, peek t a = peek s a := by
    intro a
    apply peek_of_unchanged hu
    intro f h1 h2
    simp only [List.mem_append] at h2
    rcases h2 with (h2 | h2) | h2
    · exact hm f h1 h2
    · revert h1 h2; cases f <;> decide
    · cases log
      · simp at h2
      · revert h1 h2; cases f <;> decide
  refine ⟨hf, hc, ?_, ?_, fun a _ _ => hk a, fun _ a _ => hk a⟩
  · apply hu.mono
    intro f h
    simp only [List.mem_append] at h ⊢
    rcases h with (h | h) | h
    · exact .inl h
    · right; revert h; cases f <;> decide
    · cases log
      · simp at h
      · right; revert h; cases f <;> decide
  · intro _
    apply hu.mono
    intro f h
    simp only [List.mem_append] at h ⊢
    rcases h with (h | h) | h
    · exact .inl (.inl h)
    · left; right; revert h; cases f <;> decide
    · exact .inr h

theorem setRegNZ_effect (r : Reg) (v : Byte) (n : Nat) (s : State) (hn : 2 ≤ n ∧ n ≤ 7) :
    Effect [r.field] [.n, .z] [] [] false s (charge n (setRegNZ r v s)) := by
  apply plain_effect
  · intro f hf; cases r <;> cases f <;> first
      | rfl
      | (simp [Reg.field] at hf)
  · cases r <;> decide
  · have : (charge n (setRegNZ r v s)).p = setNZ v s.p := by cases r <;> rfl
    rw [this]
    exact setNZ_flags _ _
  · have : (charge n (setRegNZ r v s)).cycleTime = s.cycleTime + n := by cases r <;> rfl
    omega

theorem modifyAccumulator_effect (f : Byte → Byte → Byte × Byte) (fl : List Flag) (n : Nat) (s : State)
    (hn : 2 ≤ n ∧ n ≤ 7) (hf : ∀ v p, FlagsUnchangedBut fl p (setNZ (f v p).1 (f v p).2)) :
    Effect [.a] fl [] [] false s (modifyAccumulator f n s) := by
  apply plain_effect
  · intro g hg
    cases g <;> simp [Same, modifyAccumulator, charge, setRegNZ, setReg] at hg ⊢
  · decide
  · exact hf _ _
  · have : (modifyAccumulator f n s).cycleTime = s.cycleTime + n := rfl
    omega

theorem setP_effect {fl : List Flag} (q : Byte) (n : Nat) (s : State) (hn : 2 ≤ n ∧ n ≤ 7)
    (hf : FlagsUnchangedBut fl s.p q) : Effect [] fl [] [] false s (charge n (s.setP q)) := by
  apply plain_effect
  · intro g hg; cases g <;> simp [Same, charge] at hg ⊢
  · decide
  · exact hf
  · have : (charge n (s.setP q)).cycleTime = s.cycleTime + n := rfl
    omega

theorem setSp_effect (v : Byte) (n : Nat) (s : State) (hn : 2 ≤ n ∧ n ≤ 7) :
    Effect [.sp] [] [] [] false s (charge n (s.setSp v)) := by
  apply plain_effect
  · intro g hg; cases g <;> simp [Same, charge] at hg ⊢
  · decide
  · exact FlagsUnchangedBut.refl _ _
  · have : (charge n (s.setSp v)).cycleTime = s.cycleTime + n := rfl
    omega

theorem charge_effect (n : Nat) (s : State) (hn : 2 ≤ n ∧ n ≤ 7) : Effect [] [] [] [] false s (charge n s) := by
  apply plain_effect
  · intro g hg; cases g <;> simp [Same, charge] at hg ⊢
  · decide
  · exact FlagsUnchangedBut.refl _ _
  · have : (charge n s).cycleTime = s.cycleTime + n := rfl
    omega

theorem setPc_effect (v : Word) (n : Nat) (s : State) (hn : 2 ≤ n ∧ n ≤ 7) :
    Effect [] [] [] [] false s (charge n (s.setPc v)) := by
  apply plain_effect
  · intro g hg; cases g <;> simp [Same, charge] at hg ⊢
  · decide
  · exact FlagsUnchangedBut.refl _ _
  · have : (charge n (s.setPc v)).cycleTime = s.cycleTime + n := rfl
    omega

theorem branch_effect (f : Flag) (b : Bool) (d : Byte) (s : State) : Effect [] [] [] [] false s (branch f b d s) := by
  simp only [branch]
  split
  · split
    · exact setPc_effect _ 3 s (by decide)
    · exact setPc_effect _ 4 s (by decide)
  · exact charge_effect 2 s (by decide)

theorem undefinedOpcode_effect (s : State) : Effect [] [] [] [] true s (undefinedOpcode s) := by
  apply plain_effect
  · intro g hg; cases g <;> simp [Same, undefinedOpcode, charge] at hg ⊢
  · decide
  · exact FlagsUnchangedBut.refl _ _
  · have : (undefinedOpcode s).cycleTime = s.cycleTime + 2 := rfl
    omega

theorem push_effect (v : Byte) (n : Nat) (s : State) (hn : 2 ≤ n ∧ n ≤ 7) :
    Effect [.sp] [] [stackAddr s.sp] [] false s (charge n (push v s)) := by
  have hu := (push_unchanged v s).mono (gs := [.sp, .ram, .bpHit, .cycleTime]) (by decide)
  have hk : ∀ a, a ∉ [stackAddr s.sp] → peek (charge n (push v s)) a = peek s a := by
    intro a ha
    have : a ≠ stackAddr s.sp := by simpa using ha
    simp [peek_push, this]
  refine ⟨?_, ?_, (hu.charge n (by decide)).mono (by decide), fun _ => (hu.charge n (by decide)).mono (by decide),
    fun a _ ha => hk a ha, fun _ a ha => hk a ha⟩
  · have : (charge n (push v s)).p = s.p := hu .p (by decide)
    rw [this]
    exact FlagsUnchangedBut.refl _ _
  · have h1 : (push v s).cycleTime = s.cycleTime := (push_unchanged v s) .cycleTime (by decide)
    have h2 : (charge n (push v s)).cycleTime = (push v s).cycleTime + n := rfl
    omega

/-- A pull, then a register or P written. -/
theorem pulling_effect {regs : List Field} {fl : List Flag} (s t : State) (n : Nat)
    (hu : UnchangedBut (regs ++ [.sp, .p, .pc, .bpHit, .cycleTime]) s t) (hsp : .sp ∈ regs)
    (hm : ∀ f, f ∈ [Field.ram, .osRom, .pagedRoms, .page, .keyboard, .sheila, .intStatus, .enableMask] → f ∉ regs)
    (hf : FlagsUnchangedBut fl s.p t.p) (hc : t.cycleTime = s.cycleTime + n) (hn : 2 ≤ n ∧ n ≤ 7) :
    Effect regs fl [] [] false s t := by
  have hk : ∀ a, peek t a = peek s a := by
    intro a
    apply peek_of_unchanged hu
    intro f h1 h2
    simp only [List.mem_append] at h2
    rcases h2 with h2 | h2
    · exact hm f h1 h2
    · revert h1 h2; cases f <;> decide
  refine ⟨hf, by omega, ?_, ?_, fun a _ _ => hk a, fun _ a _ => hk a⟩
  · apply hu.mono
    intro f h
    simp only [List.mem_append] at h ⊢
    rcases h with h | h
    · exact .inl h
    · by_cases hs : f = .sp
      · subst hs; exact .inl hsp
      · right; revert h; cases f <;> first
          | decide
          | exact absurd rfl hs
  · intro _
    apply hu.mono
    intro f h
    simp only [List.mem_append] at h ⊢
    rcases h with h | h
    · exact .inl (.inl h)
    · by_cases hs : f = .sp
      · subst hs; exact .inl (.inl hsp)
      · left; right; revert h; cases f <;> first
          | decide
          | exact absurd rfl hs

theorem returnSubroutine_effect (n : Nat) (s : State) (hn : 2 ≤ n ∧ n ≤ 7) :
    Effect [.sp] [] [] [] false s (returnSubroutine n s) := by
  have hu := pullWord_unchanged s
  apply pulling_effect s _ n _ (by decide) (by decide) _ _ hn
  · intro f hf
    have := hu f
    cases f <;> simp [Same, returnSubroutine, charge] at hf this ⊢ <;> exact this
  · have : (returnSubroutine n s).p = s.p := hu .p (by decide)
    rw [this]
    exact FlagsUnchangedBut.refl _ _
  · have h1 : (pullWord s).2.cycleTime = s.cycleTime := hu .cycleTime (by decide)
    have h2 : (returnSubroutine n s).cycleTime = (pullWord s).2.cycleTime + n := rfl
    omega

/-- RTI: P is written whole, so every flag is in its list. -/
theorem returnFromInterrupt_effect (n : Nat) (s : State) (hn : 2 ≤ n ∧ n ≤ 7) :
    Effect [.sp] [.n, .v, .u, .b, .d, .i, .z, .c] [] [] false s (charge n (returnFromInterrupt s)) := by
  obtain ⟨-, -, -, -, hu⟩ := returnFromInterrupt_eq s
  apply pulling_effect s _ n _ (by decide) (by decide) _ _ hn
  · exact ((hu.mono (gs := [.sp, .p, .pc, .bpHit, .cycleTime]) (by decide)).charge n (by decide)).mono (by decide)
  · intro f hf
    cases f <;> simp at hf
  · have h1 : (returnFromInterrupt s).cycleTime = s.cycleTime := hu .cycleTime (by decide)
    have h2 : (charge n (returnFromInterrupt s)).cycleTime = (returnFromInterrupt s).cycleTime + n := rfl
    omega

theorem jumpSubroutine_effect (w : Word) (n : Nat) (s : State) (hn : 2 ≤ n ∧ n ≤ 7) :
    Effect [.sp] [] [stackAddr s.sp, stackAddr (s.sp - 1)] [] false s (jumpSubroutine w n s) := by
  have hu := pushWord_unchanged (s.pc - 1) s
  have hw : UnchangedBut [.sp, .ram, .bpHit, .pc, .cycleTime] s (jumpSubroutine w n s) := by
    intro f hf
    have := hu f
    cases f <;> simp [Same, jumpSubroutine, charge] at hf this ⊢ <;> exact this
  have hk : ∀ a, a ∉ [stackAddr s.sp, stackAddr (s.sp - 1)] → peek (jumpSubroutine w n s) a = peek s a := by
    intro a ha
    simp only [List.mem_cons, List.not_mem_nil, or_false, not_or] at ha
    have h1 : ¬a = stackAddr (s.sp - 1#8) := ha.2
    simp [jumpSubroutine, peek_pushWord, ha.1, h1]
  refine ⟨?_, ?_, hw.mono (by decide), fun _ => hw.mono (by decide), fun a _ ha => hk a ha, fun _ a ha => hk a ha⟩
  · have : (jumpSubroutine w n s).p = s.p := hw .p (by decide)
    rw [this]
    exact FlagsUnchangedBut.refl _ _
  · have h1 : (pushWord (s.pc - 1) s).cycleTime = s.cycleTime := hu .cycleTime (by decide)
    have h2 : (jumpSubroutine w n s).cycleTime = (pushWord (s.pc - 1) s).cycleTime + n := rfl
    omega

theorem softwareInterrupt_effect (offset : Word) (s : State) :
    Effect [.sp] [.b, .i] [stackAddr s.sp, stackAddr (s.sp - 1), stackAddr (s.sp - 2)] [] false s
      (softwareInterrupt offset s) := by
  have h := takeException_entry vectorIrq (s.pc - 1 + offset) true s (by decide) (by decide)
  refine ⟨?_, ?_, h.otherFields.mono (by decide), fun _ => h.otherFields.mono (by decide),
    fun a _ ha => h.otherBytes a ha, fun _ a ha => h.otherBytes a ha⟩
  · have hp : (softwareInterrupt offset s).p = putFlag (putFlag s.p .b true) .i true := h.flags
    rw [hp]
    intro f hf
    simp only [List.mem_cons, List.not_mem_nil, or_false, not_or] at hf
    simp [getFlag_putFlag, hf]
  · have ht : (softwareInterrupt offset s).cycleTime = s.cycleTime + 7 := h.time
    omega

theorem jumpIndirect_effect (w : Word) (n : Nat) (s : State) (hn : 2 ≤ n ∧ n ≤ 7) :
    Effect [] [] [] [w, pointerHigh jmpIndirectPageWrap w] false s (jumpIndirect w n s) := by
  have hu : UnchangedBut [.pc, .bpHit, .intStatus, .irqPending, .cycleTime] s (jumpIndirect w n s) := by
    intro f hf
    simp only [jumpIndirect, readTarget, readPair, read_eq]
    cases f <;> simp [Same, charge] at hf ⊢
  have hq : (∀ a, a ∈ [w, pointerHigh jmpIndirectPageWrap w] → OutsideUla a) →
      UnchangedBut [.pc, .bpHit, .cycleTime] s (jumpIndirect w n s) := by
    intro h f hf
    have h1 : regionOf w ≠ .peripheral := h w (by simp)
    have h2 : regionOf (pointerHigh jmpIndirectPageWrap w) ≠ .peripheral := h _ (by simp)
    simp only [jumpIndirect, readTarget, readPair_of_region h1 h2]
    cases f <;> simp [Same, charge] at hf ⊢
  refine ⟨?_, ?_, hu.mono (by decide), fun h => (hq h).mono (by decide), ?_, ?_⟩
  · have : (jumpIndirect w n s).p = s.p := hu .p (by decide)
    rw [this]
    exact FlagsUnchangedBut.refl _ _
  · have : (jumpIndirect w n s).cycleTime = s.cycleTime + n := by
      simp [jumpIndirect, readTarget, charge]
    omega
  · intro a ha _
    exact peek_ram_of_unchanged hu (by decide) a ha
  · intro h a _
    exact peek_of_unchanged (hq h) (by decide) a

/-- PLA. -/
theorem pla_effect (s : State) : Effect [.a, .sp] [.n, .z] [] [] false s (charge 4 (setRegNZ .a (pull s).1 (pull s).2)) := by
  have hu := pull_unchanged s
  have hp : (pull s).2.p = s.p := hu .p (by decide)
  apply pulling_effect s _ 4 _ (by decide) (by decide) _ _ (by decide)
  · intro f hf
    have := hu f
    cases f <;> simp [Same, charge, setRegNZ, setReg] at hf this ⊢ <;> exact this
  · have : (charge 4 (setRegNZ .a (pull s).1 (pull s).2)).p = setNZ (pull s).1 (pull s).2.p := rfl
    rw [this, hp]; exact setNZ_flags _ _
  · have h1 : (pull s).2.cycleTime = s.cycleTime := hu .cycleTime (by decide)
    have : (charge 4 (setRegNZ .a (pull s).1 (pull s).2)).cycleTime = (pull s).2.cycleTime + 4 := rfl
    omega

/-- PLP. -/
theorem plp_effect (s : State) : Effect [.sp] [.n, .v, .u, .b, .d, .i, .z, .c] [] [] false s (charge 4 ((pull s).2.setP (pull s).1)) := by
  have hu := pull_unchanged s
  apply pulling_effect s _ 4 _ (by decide) (by decide) _ _ (by decide)
  · intro f hf
    have := hu f
    cases f <;> simp [Same, charge] at hf this ⊢ <;> exact this
  · intro f hf; cases f <;> simp at hf
  · have h1 : (pull s).2.cycleTime = s.cycleTime := hu .cycleTime (by decide)
    have : (charge 4 ((pull s).2.setP (pull s).1)).cycleTime = (pull s).2.cycleTime + 4 := rfl
    omega

/-- A modifying function that writes C, then N and Z (45_shift_incdec.md R271 to R274). -/
theorem shift_flags {f : Byte → Byte → Byte × Byte} (h : ∀ v p, ∃ b, (f v p).2 = putFlag p .c b) (v p : Byte) :
    FlagsUnchangedBut [.n, .z, .c] p (setNZ (f v p).1 (f v p).2) := by
  intro g hg
  obtain ⟨b, hb⟩ := h v p
  simp only [List.mem_cons, List.not_mem_nil, or_false, not_or] at hg
  rw [hb]; simp [getFlag_setNZ, getFlag_putFlag, hg]

/-- A modifying function that leaves P, then N and Z (R275, R276). -/
theorem step_flags {f : Byte → Byte → Byte × Byte} (h : ∀ v p, (f v p).2 = p) (v p : Byte) :
    FlagsUnchangedBut [.n, .z] p (setNZ (f v p).1 (f v p).2) := by
  rw [h]; exact setNZ_flags _ _

/-- An effect under lists equal to its own. -/
theorem Effect.cast {regs regs' : List Field} {fl fl' : List Flag} {stored stored' data data' : List Word} {log log' : Bool}
    {s t : State} (h : Effect regs fl stored data log s t) (h1 : regs' = regs) (h2 : fl' = fl) (h3 : stored' = stored)
    (h4 : data' = data) (h5 : log' = log) : Effect regs' fl' stored' data' log' s t := by
  subst h1 h2 h3 h4 h5
  exact h

end Sys2Proof.Machine
end

