-- ==== Sys2Proof/Laws/Timer.lean ====
section
/-! SUPPORT. What each stage of the end of a scanline does. -/

namespace Sys2Proof.Machine

@[simp] theorem latchStart_scanline (s : State) : (latchStart s).scanline = s.scanline := by
  unfold latchStart; split <;> rfl

@[simp] theorem drawLine_scanline (s : State) : (drawLine s).scanline = s.scanline := by
  unfold drawLine; split <;> rfl

@[simp] theorem raiseAt_scanline (line bit : Nat) (s : State) : (raiseAt line bit s).scanline = s.scanline := by
  unfold raiseAt; split <;> simp

@[simp] theorem nextScanline_scanline (s : State) : (nextScanline s).scanline = (s.scanline + 1) % 312 := rfl

theorem nextScanline_unchanged (s : State) : UnchangedBut [.cycleTime, .scanline] s (nextScanline s) := by
  intro f hf
  cases f <;> simp [Same, nextScanline] at hf ⊢

theorem latchStart_unchanged (s : State) : UnchangedBut [.output] s (latchStart s) := by
  intro f hf
  unfold latchStart
  split <;> cases f <;> simp [Same] at hf ⊢

theorem drawLine_unchanged (s : State) : UnchangedBut [.output] s (drawLine s) := by
  intro f hf
  unfold drawLine
  split <;> cases f <;> simp [Same] at hf ⊢

theorem raiseAt_unchanged (line bit : Nat) (s : State) : UnchangedBut [.intStatus, .irqPending] s (raiseAt line bit s) := by
  intro f hf
  unfold raiseAt
  split <;> cases f <;> simp [Same] at hf ⊢

/-- Raising a condition leaves the IRQ level of the new status (60_exceptions.md R422). -/
theorem raiseCondition_irqPending (k : Nat) (s : State) : (raiseCondition k s).irqPending =
    ((raiseCondition k s).intStatus &&& s.enableMask &&& 0x7C != 0) := rfl

@[simp] theorem tapeEnded_tape (rest : List TapeAnswer) (s : State) : (tapeEnded rest s).tape = rest := rfl

@[simp] theorem tapeEnded_output (rest : List TapeAnswer) (s : State) :
    (tapeEnded rest s).output = s.output ++ [.tapeIsAtEnd] := rfl

@[simp] theorem tapeAnswered_tape (rest : List TapeAnswer) (s : State) : (tapeAnswered rest s).tape = rest := rfl

@[simp] theorem tapeAnswered_output (rest : List TapeAnswer) (s : State) :
    (tapeAnswered rest s).output = s.output ++ [.tapeIsAtEnd, .tapeNextSymbol] := rfl

theorem tapeEnded_unchanged (rest : List TapeAnswer) (s : State) : UnchangedBut [.tape, .output] s (tapeEnded rest s) := by
  intro f hf
  cases f <;> simp [Same, tapeEnded] at hf ⊢

theorem tapeAnswered_unchanged (rest : List TapeAnswer) (s : State) :
    UnchangedBut [.tape, .output] s (tapeAnswered rest s) := by
  intro f hf
  cases f <;> simp [Same, tapeAnswered] at hf ⊢

theorem cassetteRead_unchanged (s : State) :
    UnchangedBut [.tape, .sheila, .intStatus, .irqPending, .output] s (cassetteRead s) := by
  intro f hf
  unfold cassetteRead tapeEnded tapeAnswered
  split <;> cases f <;> simp [Same] at hf ⊢

theorem cassetteWrite_unchanged (s : State) :
    UnchangedBut [.dataShiftHasData, .intStatus, .irqPending, .output] s (cassetteWrite s) := by
  intro f hf
  unfold cassetteWrite
  split <;> cases f <;> simp [Same] at hf ⊢

/-- The tick, by its cases (60_exceptions.md R460). -/
theorem cassetteTick_eq (s : State) : cassetteTick s =
    if s.cassetteCounter + 1 < 130 then s.setCassetteCounter (s.cassetteCounter + 1)
    else if s.sheila[7].getLsbD 6 = false then s.setCassetteCounter 0
    else if commsMode s.sheila[7] = 0 then cassetteRead (s.setCassetteCounter 0)
    else if commsMode s.sheila[7] = 2 then cassetteWrite (s.setCassetteCounter 0)
    else s.setCassetteCounter 0 := by
  rfl

theorem setCassetteCounter_unchanged (s : State) (n : Nat) : UnchangedBut [.cassetteCounter] s (s.setCassetteCounter n) := by
  intro f hf
  cases f <;> simp [Same] at hf ⊢

/-- The tick changes the cassette's state, the ULA's conditions and the outputs alone. -/
theorem cassetteTick_unchanged (s : State) :
    UnchangedBut [.cassetteCounter, .tape, .sheila, .dataShiftHasData, .intStatus, .irqPending, .output] s
      (cassetteTick s) := by
  rw [cassetteTick_eq]
  have h0 := setCassetteCounter_unchanged s 0
  repeat' split
  · exact (setCassetteCounter_unchanged s _).mono (by decide)
  · exact h0.mono (by decide)
  · exact (h0.trans (cassetteRead_unchanged _)).mono (by decide)
  · exact (h0.trans (cassetteWrite_unchanged _)).mono (by decide)
  · exact h0.mono (by decide)

/-- The counter stays in its range (10_state.md R55). -/
theorem cassetteTick_counter (s : State) : (cassetteTick s).cassetteCounter < 130 := by
  rw [cassetteTick_eq]
  have h1 : ∀ t : State, (cassetteRead t).cassetteCounter = t.cassetteCounter :=
    fun t => cassetteRead_unchanged t .cassetteCounter (by decide)
  have h2 : ∀ t : State, (cassetteWrite t).cassetteCounter = t.cassetteCounter :=
    fun t => cassetteWrite_unchanged t .cassetteCounter (by decide)
  repeat' split
  all_goals simp [h1, h2]
  assumption

/-- The end of a scanline changes neither the CPU's registers nor RAM nor the ROMs. -/
theorem endOfScanline_unchanged (s : State) :
    UnchangedBut [.cycleTime, .scanline, .intStatus, .irqPending, .cassetteCounter, .output, .tape, .sheila,
      .dataShiftHasData] s (endOfScanline s) :=
  (((((nextScanline_unchanged s).trans (latchStart_unchanged _)).trans (drawLine_unchanged _)).trans
    (raiseAt_unchanged rtcScanline 3 _)).trans (raiseAt_unchanged displayEndScanline 2 _)).trans
    (cassetteTick_unchanged _) |>.mono (by decide)

/-- The counter's next value. -/
theorem endOfScanline_scanline (s : State) : (endOfScanline s).scanline = (s.scanline + 1) % 312 := by
  unfold endOfScanline
  rw [show ∀ t : State, (cassetteTick t).scanline = t.scanline from fun t => cassetteTick_unchanged t .scanline (by decide)]
  simp

/-- The scanline's cycles are taken off. -/
theorem endOfScanline_cycleTime (s : State) : (endOfScanline s).cycleTime = s.cycleTime - 128 := by
  have h1 := cassetteTick_unchanged
    (raiseAt displayEndScanline 2 (raiseAt rtcScanline 3 (drawLine (latchStart (nextScanline s))))) .cycleTime (by decide)
  have h2 := raiseAt_unchanged displayEndScanline 2 (raiseAt rtcScanline 3 (drawLine (latchStart (nextScanline s))))
    .cycleTime (by decide)
  have h3 := raiseAt_unchanged rtcScanline 3 (drawLine (latchStart (nextScanline s))) .cycleTime (by decide)
  have h4 := drawLine_unchanged (latchStart (nextScanline s)) .cycleTime (by decide)
  have h5 := latchStart_unchanged (nextScanline s) .cycleTime (by decide)
  have h6 : (nextScanline s).cycleTime = s.cycleTime - scanlineCycles := by simp [nextScanline]
  simp only [Same] at h1 h2 h3 h4 h5
  unfold endOfScanline
  rw [h1, h2, h3, h4, h5, h6]
  simp [scanlineCycles]

end Sys2Proof.Machine
end

