-- ==== Sys2Proof/Laws/Kept.lean ====
section
/-! SUPPORT. The part of the invariant that accesses could break: every access keeps it. -/

namespace Sys2Proof.Machine

/-- The clauses of `State.Inv` on memory, the ULA, the banks and the keyboard: those an access could break. -/
structure Kept (s : State) : Prop where
  memory : s.memoryWf = true
  status : s.intStatus &&& 0x81 = 0
  irqLevel : s.irqPending = (pendingEnabled s != 0)
  mask : s.enableMask = s.sheila[0]
  bank : s.pagedRoms[11] = none
  keys : ∀ r : Fin 14, s.keyboard[r] &&& 0xF0 = 0

/-- Where none of its fields changes, nothing is broken. -/
theorem Kept.of_unchanged {fs : List Field} {s t : State} (h : Kept s) (hu : UnchangedBut fs s t)
    (hf : ∀ f, f ∈ [Field.ram, .osRom, .pagedRoms, .keyboard, .sheila, .intStatus, .enableMask, .irqPending] → f ∉ fs) :
    Kept t := by
  have h1 := hu .ram (hf _ (by decide))
  have h2 := hu .osRom (hf _ (by decide))
  have h3 := hu .pagedRoms (hf _ (by decide))
  have h4 := hu .keyboard (hf _ (by decide))
  have h5 := hu .sheila (hf _ (by decide))
  have h6 := hu .intStatus (hf _ (by decide))
  have h7 := hu .enableMask (hf _ (by decide))
  have h8 := hu .irqPending (hf _ (by decide))
  simp only [Same] at h1 h2 h3 h4 h5 h6 h7 h8
  refine ⟨memoryWf_of_eq h.memory h1 h2 h3, ?_, ?_, ?_, ?_, ?_⟩
  · rw [h6]; exact h.status
  · simp only [pendingEnabled, h6, h7, h8]; exact h.irqLevel
  · simp only [h5, h7]; exact h.mask
  · simp only [h3]; exact h.bank
  · simp only [h4]; exact h.keys

/-- Bits 0 and 7 stay 0 when another bit is written. -/
theorem putBit_status (v : Byte) (k : Nat) (b : Bool) (h : v &&& 0x81 = 0) (hk : 1 ≤ k ∧ k ≤ 6) :
    putBit v k b &&& 0x81 = 0 := by
  have e : k = 1 ∨ k = 2 ∨ k = 3 ∨ k = 4 ∨ k = 5 ∨ k = 6 := by omega
  rcases e with e | e | e | e | e | e <;> subst e <;> revert h <;> revert v <;> cases b <;> decide

/-- A status byte with bits 0 and 7 clear, put in and followed by `UpdateIRQ()`. -/
theorem Kept.update {s : State} (v : Byte) (h : Kept s) (hv : v &&& 0x81 = 0) : Kept (updateIrq (s.setIntStatus v)) :=
  ⟨h.memory, hv, rfl, h.mask, h.bank, h.keys⟩

/-- `Raise` keeps it (60_exceptions.md R423). -/
theorem Kept.raise {s : State} (k : Nat) (h : Kept s) (hk : 1 ≤ k ∧ k ≤ 6) : Kept (raiseCondition k s) :=
  h.update _ (putBit_status _ _ _ h.status hk)

/-- A register other than offset 0 is stored. -/
theorem Kept.setSheila {s : State} (k : Fin 16) (v : Byte) (h : Kept s) (hk : k ≠ 0) : Kept (s.setSheila k v) := by
  refine ⟨h.memory, h.status, h.irqLevel, ?_, h.bank, h.keys⟩
  have hn : k.val ≠ 0 := fun e => hk (Fin.ext e)
  have := h.mask
  simpa [Vector.getElem_set, hn] using this

theorem Kept.emit {s : State} (e : List OutputEvent) (h : Kept s) : Kept (s.emit e) :=
  ⟨h.memory, h.status, h.irqLevel, h.mask, h.bank, h.keys⟩

theorem Kept.tapeEnded {s : State} (rest : List TapeAnswer) (h : Kept s) : Kept (Machine.tapeEnded rest s) :=
  ⟨h.memory, h.status, h.irqLevel, h.mask, h.bank, h.keys⟩

theorem Kept.tapeAnswered {s : State} (rest : List TapeAnswer) (h : Kept s) : Kept (Machine.tapeAnswered rest s) :=
  ⟨h.memory, h.status, h.irqLevel, h.mask, h.bank, h.keys⟩

theorem Kept.setHasData {s : State} (b : Bool) (h : Kept s) : Kept (s.setHasData b) :=
  ⟨h.memory, h.status, h.irqLevel, h.mask, h.bank, h.keys⟩

/-- The side effect of a read keeps it. -/
theorem Kept.readEffect {s : State} (a : Word) (h : Kept s) : Kept (readEffect a s) := by
  unfold Machine.readEffect ulaReadEffect
  split
  · split
    · refine ⟨h.memory, putBit_status _ _ _ h.status (by decide), ?_, h.mask, h.bank, h.keys⟩
      have e : ∀ v m : Byte, putBit v 1 false &&& m &&& 0x7C = v &&& m &&& 0x7C := by
        intro v m
        simp only [putBit, Bool.false_eq_true, if_false]
        apply BitVec.eq_of_getLsbD_eq
        intro i hi
        have : i = 0 ∨ i = 1 ∨ i = 2 ∨ i = 3 ∨ i = 4 ∨ i = 5 ∨ i = 6 ∨ i = 7 := by omega
        rcases this with rfl | rfl | rfl | rfl | rfl | rfl | rfl | rfl <;> simp
      have := h.irqLevel
      simp only [pendingEnabled, putStatus, State.setIntStatus_intStatus, State.setIntStatus_enableMask,
        State.setIntStatus_irqPending, e] at this ⊢
      exact this
    · split
      · exact h.update _ (putBit_status _ _ _ h.status (by decide))
      · exact h
  · exact h

/-- A write of a peripheral register keeps it. -/
theorem Kept.ulaWrite {s : State} (k : Fin 16) (v : Byte) (h : Kept s) : Kept (ulaWrite k v s) := by
  unfold Machine.ulaWrite
  split
  · exact ⟨h.memory, h.status, rfl, by simp [writeEnable], h.bank, h.keys⟩
  · exact ((h.setSheila 4 v (by decide)).setHasData true).update _ (putBit_status _ _ _ h.status (by decide))
  · have h5 : acknowledged s.intStatus v &&& 0x81 = 0 := by
      have := h.status
      have h2 : ∀ u : Byte, u &&& 0x81 = 0 → (if v.getLsbD 4 then putBit u 2 false else u) &&& 0x81 = 0 := by
        intro u hu; split
        · exact putBit_status _ _ _ hu (by decide)
        · exact hu
      have h3 : ∀ u : Byte, u &&& 0x81 = 0 → (if v.getLsbD 5 then putBit u 3 false else u) &&& 0x81 = 0 := by
        intro u hu; split
        · exact putBit_status _ _ _ hu (by decide)
        · exact hu
      have h6 : ∀ u : Byte, u &&& 0x81 = 0 → (if v.getLsbD 6 then putBit u 6 false else u) &&& 0x81 = 0 := by
        intro u hu; split
        · exact putBit_status _ _ _ hu (by decide)
        · exact hu
      exact h6 _ (h3 _ (h2 _ this))
    have hp : Kept ((s.setSheila 5 v).setPage (nextPage s.page v)) := by
      have := h.setSheila 5 v (by decide)
      exact ⟨this.memory, this.status, this.irqLevel, this.mask, this.bank, this.keys⟩
    exact hp.update _ h5
  · rw [writeControl_eq]
    have h7 : Kept (s.setSheila 7 v) := h.setSheila 7 v (by decide)
    cases decide (commsMode s.sheila[7] ≠ 2 ∧ commsMode v = 2) <;>
      cases decide (videoMode v ≠ videoMode s.sheila[7])
    · exact h7
    · exact (h7.emit _).emit _
    · exact (h7.setHasData false).raise 5 (by decide)
    · exact (((h7.emit _).emit _).setHasData false).raise 5 (by decide)
  · next h0 _ _ _ =>
    have hk : k ≠ 0 := fun e => h0 (by rw [e]; rfl)
    split
    · exact (h.setSheila k v hk).emit _
    · exact h.setSheila k v hk

/-- A checked read keeps it. -/
theorem Kept.read {s : State} (a : Word) (h : Kept s) : Kept (Machine.read a s).2 := by
  rw [read_eq]
  have := h.readEffect a
  exact ⟨this.memory, this.status, this.irqLevel, this.mask, this.bank, this.keys⟩

/-- A checked write keeps it. -/
theorem Kept.write {s : State} (a : Word) (v : Byte) (h : Kept s) : Kept (Machine.write a v s) := by
  rw [write_eq]
  have hm : Kept (machineWrite a v s) := by
    have hmem := machineWrite_memoryWf a v s h.memory
    cases hr : regionOf a with
    | ram =>
      rw [machineWrite_ram hr] at hmem ⊢
      exact ⟨hmem, h.status, h.irqLevel, h.mask, h.bank, h.keys⟩
    | pagedRom => rw [machineWrite_rom (.inl hr)]; exact h
    | osRom => rw [machineWrite_rom (.inr hr)]; exact h
    | peripheral => rw [machineWrite_peripheral hr]; exact h.ulaWrite _ v
  exact ⟨hm.memory, hm.status, hm.irqLevel, hm.mask, hm.bank, hm.keys⟩

/-! ## What makes no access -/

theorem Kept.setA {s : State} (v : Byte) (h : Kept s) : Kept (s.setA v) :=
  ⟨h.memory, h.status, h.irqLevel, h.mask, h.bank, h.keys⟩

theorem Kept.setReg {s : State} (r : Reg) (v : Byte) (h : Kept s) : Kept (setReg r v s) := by
  cases r <;> exact ⟨h.memory, h.status, h.irqLevel, h.mask, h.bank, h.keys⟩

theorem Kept.setP {s : State} (v : Byte) (h : Kept s) : Kept (s.setP v) :=
  ⟨h.memory, h.status, h.irqLevel, h.mask, h.bank, h.keys⟩

theorem Kept.setRegNZ {s : State} (r : Reg) (v : Byte) (h : Kept s) : Kept (setRegNZ r v s) := (h.setReg r v).setP _

theorem Kept.setSp {s : State} (v : Byte) (h : Kept s) : Kept (s.setSp v) :=
  ⟨h.memory, h.status, h.irqLevel, h.mask, h.bank, h.keys⟩

theorem Kept.setPc {s : State} (v : Word) (h : Kept s) : Kept (s.setPc v) :=
  ⟨h.memory, h.status, h.irqLevel, h.mask, h.bank, h.keys⟩

theorem Kept.charge {s : State} (n : Nat) (h : Kept s) : Kept (charge n s) :=
  ⟨h.memory, h.status, h.irqLevel, h.mask, h.bank, h.keys⟩

/-! ## The shared operations -/

theorem Kept.readPair {s : State} (lo hi : Word) (h : Kept s) : Kept (readPair lo hi s).2 := (h.read lo).read hi

theorem Kept.push {s : State} (v : Byte) (h : Kept s) : Kept (push v s) := (h.write _ v).setSp _

theorem Kept.pull {s : State} (h : Kept s) : Kept (pull s).2 := (h.setSp _).read _

theorem Kept.pushWord {s : State} (w : Word) (h : Kept s) : Kept (pushWord w s) := (h.push _).push _

theorem Kept.pullWord {s : State} (h : Kept s) : Kept (pullWord s).2 := h.pull.pull

theorem Kept.address {s : State} (m : AddrMode) (h : Kept s) : Kept (address m s).st := by
  cases m <;> first
    | exact h
    | exact h.readPair _ _

theorem Kept.readOperand {s : State} (x : Source) (h : Kept s) : Kept (readOperand x s).st := by
  cases x with
  | imm i => exact h
  | mem m => exact (h.address m).read _

theorem Kept.takeException {s : State} (vec ret : Word) (b : Bool) (h : Kept s) : Kept (takeException vec ret b s) :=
  ((((((h.pushWord ret).setP _).push _).setP _).readPair _ _).setPc _).charge _

theorem Kept.returnFromInterrupt {s : State} (h : Kept s) : Kept (returnFromInterrupt s) :=
  ((h.pull.setP _).pullWord).setPc _

theorem Kept.fetchByte {s : State} (h : Kept s) : Kept (fetchByte s).2 := (h.read _).setPc _

end Sys2Proof.Machine
end

