-- ==== Sys2Proof/Laws/PerInstr.lean ====
section
/-! SUPPORT. What holds of every instruction as syntax, one lemma for each constructor: the opcode byte alone selects the
instruction and its length (30_encoding.md R110, R111), and its form is one its rule lists. -/

namespace Sys2Proof

/-- A 16-bit value is the pair of its bytes (30_encoding.md R112). -/
theorem wordOf_bytes (w : Word) : wordOf (loByte w) (hiByte w) = w := by
  apply BitVec.eq_of_getLsbD_eq
  intro k hk
  simp only [wordOf, loByte, hiByte, BitVec.getLsbD_append, BitVec.getLsbD_extractLsb']
  by_cases h : k < 8
  · simp [h]
  · have h8 : k - 8 < 8 := by omega
    simp [h, h8, show 8 + (k - 8) = k by omega]

end Sys2Proof

namespace Sys2Proof.Laws.OpcodeByte

/-- The instruction is well-formed, its opcode byte tells how many operand bytes it has, and that byte with its operand bytes
selects it. -/
def Statement (i : Instr) : Prop :=
  i.wf = true ∧ operandCount i.opcode = i.operand.bytes.length ∧
    decodeOpcode i.opcode (i.operand.bytes.getD 0 0) (i.operand.bytes.getD 1 0) = i

/-- The statement from the opcode's value. -/
theorem mk {i : Instr} (op : Byte) (ho : i.opcode = op) (hw : i.wf = true)
    (hc : operandCount op = i.operand.bytes.length)
    (hd : decodeOpcode op (i.operand.bytes.getD 0 0) (i.operand.bytes.getD 1 0) = i) : Statement i :=
  ⟨hw, ho ▸ hc, ho ▸ hd⟩

theorem brk : Statement .brk := mk 0x00 rfl rfl rfl rfl
theorem oraIzx (z : Byte) : Statement (.oraIzx z) := mk 0x01 rfl rfl rfl rfl
theorem oraZp (z : Byte) : Statement (.oraZp z) := mk 0x05 rfl rfl rfl rfl
theorem aslZp (z : Byte) : Statement (.aslZp z) := mk 0x06 rfl rfl rfl rfl
theorem php : Statement .php := mk 0x08 rfl rfl rfl rfl
theorem oraImm (i : Byte) : Statement (.oraImm i) := mk 0x09 rfl rfl rfl rfl
theorem aslAcc : Statement .aslAcc := mk 0x0A rfl rfl rfl rfl
theorem oraAbs (w : Word) : Statement (.oraAbs w) := mk 0x0D rfl rfl rfl (congrArg Instr.oraAbs (wordOf_bytes w))
theorem aslAbs (w : Word) : Statement (.aslAbs w) := mk 0x0E rfl rfl rfl (congrArg Instr.aslAbs (wordOf_bytes w))
theorem bpl (d : Byte) : Statement (.bpl d) := mk 0x10 rfl rfl rfl rfl
theorem oraIzy (z : Byte) : Statement (.oraIzy z) := mk 0x11 rfl rfl rfl rfl
theorem oraZpx (z : Byte) : Statement (.oraZpx z) := mk 0x15 rfl rfl rfl rfl
theorem aslZpx (z : Byte) : Statement (.aslZpx z) := mk 0x16 rfl rfl rfl rfl
theorem clc : Statement .clc := mk 0x18 rfl rfl rfl rfl
theorem oraAby (w : Word) : Statement (.oraAby w) := mk 0x19 rfl rfl rfl (congrArg Instr.oraAby (wordOf_bytes w))
theorem oraAbx (w : Word) : Statement (.oraAbx w) := mk 0x1D rfl rfl rfl (congrArg Instr.oraAbx (wordOf_bytes w))
theorem aslAbx (w : Word) : Statement (.aslAbx w) := mk 0x1E rfl rfl rfl (congrArg Instr.aslAbx (wordOf_bytes w))
theorem jsr (w : Word) : Statement (.jsr w) := mk 0x20 rfl rfl rfl (congrArg Instr.jsr (wordOf_bytes w))
theorem andIzx (z : Byte) : Statement (.andIzx z) := mk 0x21 rfl rfl rfl rfl
theorem bitZp (z : Byte) : Statement (.bitZp z) := mk 0x24 rfl rfl rfl rfl
theorem andZp (z : Byte) : Statement (.andZp z) := mk 0x25 rfl rfl rfl rfl
theorem rolZp (z : Byte) : Statement (.rolZp z) := mk 0x26 rfl rfl rfl rfl
theorem plp : Statement .plp := mk 0x28 rfl rfl rfl rfl
theorem andImm (i : Byte) : Statement (.andImm i) := mk 0x29 rfl rfl rfl rfl
theorem rolAcc : Statement .rolAcc := mk 0x2A rfl rfl rfl rfl
theorem bitAbs (w : Word) : Statement (.bitAbs w) := mk 0x2C rfl rfl rfl (congrArg Instr.bitAbs (wordOf_bytes w))
theorem andAbs (w : Word) : Statement (.andAbs w) := mk 0x2D rfl rfl rfl (congrArg Instr.andAbs (wordOf_bytes w))
theorem rolAbs (w : Word) : Statement (.rolAbs w) := mk 0x2E rfl rfl rfl (congrArg Instr.rolAbs (wordOf_bytes w))
theorem bmi (d : Byte) : Statement (.bmi d) := mk 0x30 rfl rfl rfl rfl
theorem andIzy (z : Byte) : Statement (.andIzy z) := mk 0x31 rfl rfl rfl rfl
theorem andZpx (z : Byte) : Statement (.andZpx z) := mk 0x35 rfl rfl rfl rfl
theorem rolZpx (z : Byte) : Statement (.rolZpx z) := mk 0x36 rfl rfl rfl rfl
theorem sec : Statement .sec := mk 0x38 rfl rfl rfl rfl
theorem andAby (w : Word) : Statement (.andAby w) := mk 0x39 rfl rfl rfl (congrArg Instr.andAby (wordOf_bytes w))
theorem andAbx (w : Word) : Statement (.andAbx w) := mk 0x3D rfl rfl rfl (congrArg Instr.andAbx (wordOf_bytes w))
theorem rolAbx (w : Word) : Statement (.rolAbx w) := mk 0x3E rfl rfl rfl (congrArg Instr.rolAbx (wordOf_bytes w))
theorem rti : Statement .rti := mk 0x40 rfl rfl rfl rfl
theorem eorIzx (z : Byte) : Statement (.eorIzx z) := mk 0x41 rfl rfl rfl rfl
theorem eorZp (z : Byte) : Statement (.eorZp z) := mk 0x45 rfl rfl rfl rfl
theorem lsrZp (z : Byte) : Statement (.lsrZp z) := mk 0x46 rfl rfl rfl rfl
theorem pha : Statement .pha := mk 0x48 rfl rfl rfl rfl
theorem eorImm (i : Byte) : Statement (.eorImm i) := mk 0x49 rfl rfl rfl rfl
theorem lsrAcc : Statement .lsrAcc := mk 0x4A rfl rfl rfl rfl
theorem jmpAbs (w : Word) : Statement (.jmpAbs w) := mk 0x4C rfl rfl rfl (congrArg Instr.jmpAbs (wordOf_bytes w))
theorem eorAbs (w : Word) : Statement (.eorAbs w) := mk 0x4D rfl rfl rfl (congrArg Instr.eorAbs (wordOf_bytes w))
theorem lsrAbs (w : Word) : Statement (.lsrAbs w) := mk 0x4E rfl rfl rfl (congrArg Instr.lsrAbs (wordOf_bytes w))
theorem bvc (d : Byte) : Statement (.bvc d) := mk 0x50 rfl rfl rfl rfl
theorem eorIzy (z : Byte) : Statement (.eorIzy z) := mk 0x51 rfl rfl rfl rfl
theorem eorZpx (z : Byte) : Statement (.eorZpx z) := mk 0x55 rfl rfl rfl rfl
theorem lsrZpx (z : Byte) : Statement (.lsrZpx z) := mk 0x56 rfl rfl rfl rfl
theorem cli : Statement .cli := mk 0x58 rfl rfl rfl rfl
theorem eorAby (w : Word) : Statement (.eorAby w) := mk 0x59 rfl rfl rfl (congrArg Instr.eorAby (wordOf_bytes w))
theorem eorAbx (w : Word) : Statement (.eorAbx w) := mk 0x5D rfl rfl rfl (congrArg Instr.eorAbx (wordOf_bytes w))
theorem lsrAbx (w : Word) : Statement (.lsrAbx w) := mk 0x5E rfl rfl rfl (congrArg Instr.lsrAbx (wordOf_bytes w))
theorem rts : Statement .rts := mk 0x60 rfl rfl rfl rfl
theorem adcIzx (z : Byte) : Statement (.adcIzx z) := mk 0x61 rfl rfl rfl rfl
theorem adcZp (z : Byte) : Statement (.adcZp z) := mk 0x65 rfl rfl rfl rfl
theorem rorZp (z : Byte) : Statement (.rorZp z) := mk 0x66 rfl rfl rfl rfl
theorem pla : Statement .pla := mk 0x68 rfl rfl rfl rfl
theorem adcImm (i : Byte) : Statement (.adcImm i) := mk 0x69 rfl rfl rfl rfl
theorem rorAcc : Statement .rorAcc := mk 0x6A rfl rfl rfl rfl
theorem jmpInd (w : Word) : Statement (.jmpInd w) := mk 0x6C rfl rfl rfl (congrArg Instr.jmpInd (wordOf_bytes w))
theorem adcAbs (w : Word) : Statement (.adcAbs w) := mk 0x6D rfl rfl rfl (congrArg Instr.adcAbs (wordOf_bytes w))
theorem rorAbs (w : Word) : Statement (.rorAbs w) := mk 0x6E rfl rfl rfl (congrArg Instr.rorAbs (wordOf_bytes w))
theorem bvs (d : Byte) : Statement (.bvs d) := mk 0x70 rfl rfl rfl rfl
theorem adcIzy (z : Byte) : Statement (.adcIzy z) := mk 0x71 rfl rfl rfl rfl
theorem adcZpx (z : Byte) : Statement (.adcZpx z) := mk 0x75 rfl rfl rfl rfl
theorem rorZpx (z : Byte) : Statement (.rorZpx z) := mk 0x76 rfl rfl rfl rfl
theorem sei : Statement .sei := mk 0x78 rfl rfl rfl rfl
theorem adcAby (w : Word) : Statement (.adcAby w) := mk 0x79 rfl rfl rfl (congrArg Instr.adcAby (wordOf_bytes w))
theorem adcAbx (w : Word) : Statement (.adcAbx w) := mk 0x7D rfl rfl rfl (congrArg Instr.adcAbx (wordOf_bytes w))
theorem rorAbx (w : Word) : Statement (.rorAbx w) := mk 0x7E rfl rfl rfl (congrArg Instr.rorAbx (wordOf_bytes w))
theorem staIzx (z : Byte) : Statement (.staIzx z) := mk 0x81 rfl rfl rfl rfl
theorem styZp (z : Byte) : Statement (.styZp z) := mk 0x84 rfl rfl rfl rfl
theorem staZp (z : Byte) : Statement (.staZp z) := mk 0x85 rfl rfl rfl rfl
theorem stxZp (z : Byte) : Statement (.stxZp z) := mk 0x86 rfl rfl rfl rfl
theorem dey : Statement .dey := mk 0x88 rfl rfl rfl rfl
theorem txa : Statement .txa := mk 0x8A rfl rfl rfl rfl
theorem styAbs (w : Word) : Statement (.styAbs w) := mk 0x8C rfl rfl rfl (congrArg Instr.styAbs (wordOf_bytes w))
theorem staAbs (w : Word) : Statement (.staAbs w) := mk 0x8D rfl rfl rfl (congrArg Instr.staAbs (wordOf_bytes w))
theorem stxAbs (w : Word) : Statement (.stxAbs w) := mk 0x8E rfl rfl rfl (congrArg Instr.stxAbs (wordOf_bytes w))
theorem bcc (d : Byte) : Statement (.bcc d) := mk 0x90 rfl rfl rfl rfl
theorem staIzy (z : Byte) : Statement (.staIzy z) := mk 0x91 rfl rfl rfl rfl
theorem styZpx (z : Byte) : Statement (.styZpx z) := mk 0x94 rfl rfl rfl rfl
theorem staZpx (z : Byte) : Statement (.staZpx z) := mk 0x95 rfl rfl rfl rfl
theorem stxZpy (z : Byte) : Statement (.stxZpy z) := mk 0x96 rfl rfl rfl rfl
theorem tya : Statement .tya := mk 0x98 rfl rfl rfl rfl
theorem staAby (w : Word) : Statement (.staAby w) := mk 0x99 rfl rfl rfl (congrArg Instr.staAby (wordOf_bytes w))
theorem txs : Statement .txs := mk 0x9A rfl rfl rfl rfl
theorem staAbx (w : Word) : Statement (.staAbx w) := mk 0x9D rfl rfl rfl (congrArg Instr.staAbx (wordOf_bytes w))
theorem ldyImm (i : Byte) : Statement (.ldyImm i) := mk 0xA0 rfl rfl rfl rfl
theorem ldaIzx (z : Byte) : Statement (.ldaIzx z) := mk 0xA1 rfl rfl rfl rfl
theorem ldxImm (i : Byte) : Statement (.ldxImm i) := mk 0xA2 rfl rfl rfl rfl
theorem ldyZp (z : Byte) : Statement (.ldyZp z) := mk 0xA4 rfl rfl rfl rfl
theorem ldaZp (z : Byte) : Statement (.ldaZp z) := mk 0xA5 rfl rfl rfl rfl
theorem ldxZp (z : Byte) : Statement (.ldxZp z) := mk 0xA6 rfl rfl rfl rfl
theorem tay : Statement .tay := mk 0xA8 rfl rfl rfl rfl
theorem ldaImm (i : Byte) : Statement (.ldaImm i) := mk 0xA9 rfl rfl rfl rfl
theorem tax : Statement .tax := mk 0xAA rfl rfl rfl rfl
theorem ldyAbs (w : Word) : Statement (.ldyAbs w) := mk 0xAC rfl rfl rfl (congrArg Instr.ldyAbs (wordOf_bytes w))
theorem ldaAbs (w : Word) : Statement (.ldaAbs w) := mk 0xAD rfl rfl rfl (congrArg Instr.ldaAbs (wordOf_bytes w))
theorem ldxAbs (w : Word) : Statement (.ldxAbs w) := mk 0xAE rfl rfl rfl (congrArg Instr.ldxAbs (wordOf_bytes w))
theorem bcs (d : Byte) : Statement (.bcs d) := mk 0xB0 rfl rfl rfl rfl
theorem ldaIzy (z : Byte) : Statement (.ldaIzy z) := mk 0xB1 rfl rfl rfl rfl
theorem ldyZpx (z : Byte) : Statement (.ldyZpx z) := mk 0xB4 rfl rfl rfl rfl
theorem ldaZpx (z : Byte) : Statement (.ldaZpx z) := mk 0xB5 rfl rfl rfl rfl
theorem ldxZpy (z : Byte) : Statement (.ldxZpy z) := mk 0xB6 rfl rfl rfl rfl
theorem clv : Statement .clv := mk 0xB8 rfl rfl rfl rfl
theorem ldaAby (w : Word) : Statement (.ldaAby w) := mk 0xB9 rfl rfl rfl (congrArg Instr.ldaAby (wordOf_bytes w))
theorem tsx : Statement .tsx := mk 0xBA rfl rfl rfl rfl
theorem ldyAbx (w : Word) : Statement (.ldyAbx w) := mk 0xBC rfl rfl rfl (congrArg Instr.ldyAbx (wordOf_bytes w))
theorem ldaAbx (w : Word) : Statement (.ldaAbx w) := mk 0xBD rfl rfl rfl (congrArg Instr.ldaAbx (wordOf_bytes w))
theorem ldxAby (w : Word) : Statement (.ldxAby w) := mk 0xBE rfl rfl rfl (congrArg Instr.ldxAby (wordOf_bytes w))
theorem cpyImm (i : Byte) : Statement (.cpyImm i) := mk 0xC0 rfl rfl rfl rfl
theorem cmpIzx (z : Byte) : Statement (.cmpIzx z) := mk 0xC1 rfl rfl rfl rfl
theorem cpyZp (z : Byte) : Statement (.cpyZp z) := mk 0xC4 rfl rfl rfl rfl
theorem cmpZp (z : Byte) : Statement (.cmpZp z) := mk 0xC5 rfl rfl rfl rfl
theorem decZp (z : Byte) : Statement (.decZp z) := mk 0xC6 rfl rfl rfl rfl
theorem iny : Statement .iny := mk 0xC8 rfl rfl rfl rfl
theorem cmpImm (i : Byte) : Statement (.cmpImm i) := mk 0xC9 rfl rfl rfl rfl
theorem dex : Statement .dex := mk 0xCA rfl rfl rfl rfl
theorem cpyAbs (w : Word) : Statement (.cpyAbs w) := mk 0xCC rfl rfl rfl (congrArg Instr.cpyAbs (wordOf_bytes w))
theorem cmpAbs (w : Word) : Statement (.cmpAbs w) := mk 0xCD rfl rfl rfl (congrArg Instr.cmpAbs (wordOf_bytes w))
theorem decAbs (w : Word) : Statement (.decAbs w) := mk 0xCE rfl rfl rfl (congrArg Instr.decAbs (wordOf_bytes w))
theorem bne (d : Byte) : Statement (.bne d) := mk 0xD0 rfl rfl rfl rfl
theorem cmpIzy (z : Byte) : Statement (.cmpIzy z) := mk 0xD1 rfl rfl rfl rfl
theorem cmpZpx (z : Byte) : Statement (.cmpZpx z) := mk 0xD5 rfl rfl rfl rfl
theorem decZpx (z : Byte) : Statement (.decZpx z) := mk 0xD6 rfl rfl rfl rfl
theorem cld : Statement .cld := mk 0xD8 rfl rfl rfl rfl
theorem cmpAby (w : Word) : Statement (.cmpAby w) := mk 0xD9 rfl rfl rfl (congrArg Instr.cmpAby (wordOf_bytes w))
theorem cmpAbx (w : Word) : Statement (.cmpAbx w) := mk 0xDD rfl rfl rfl (congrArg Instr.cmpAbx (wordOf_bytes w))
theorem decAbx (w : Word) : Statement (.decAbx w) := mk 0xDE rfl rfl rfl (congrArg Instr.decAbx (wordOf_bytes w))
theorem cpxImm (i : Byte) : Statement (.cpxImm i) := mk 0xE0 rfl rfl rfl rfl
theorem sbcIzx (z : Byte) : Statement (.sbcIzx z) := mk 0xE1 rfl rfl rfl rfl
theorem cpxZp (z : Byte) : Statement (.cpxZp z) := mk 0xE4 rfl rfl rfl rfl
theorem sbcZp (z : Byte) : Statement (.sbcZp z) := mk 0xE5 rfl rfl rfl rfl
theorem incZp (z : Byte) : Statement (.incZp z) := mk 0xE6 rfl rfl rfl rfl
theorem inx : Statement .inx := mk 0xE8 rfl rfl rfl rfl
theorem sbcImm (i : Byte) : Statement (.sbcImm i) := mk 0xE9 rfl rfl rfl rfl
theorem nop : Statement .nop := mk 0xEA rfl rfl rfl rfl
theorem cpxAbs (w : Word) : Statement (.cpxAbs w) := mk 0xEC rfl rfl rfl (congrArg Instr.cpxAbs (wordOf_bytes w))
theorem sbcAbs (w : Word) : Statement (.sbcAbs w) := mk 0xED rfl rfl rfl (congrArg Instr.sbcAbs (wordOf_bytes w))
theorem incAbs (w : Word) : Statement (.incAbs w) := mk 0xEE rfl rfl rfl (congrArg Instr.incAbs (wordOf_bytes w))
theorem beq (d : Byte) : Statement (.beq d) := mk 0xF0 rfl rfl rfl rfl
theorem sbcIzy (z : Byte) : Statement (.sbcIzy z) := mk 0xF1 rfl rfl rfl rfl
theorem sbcZpx (z : Byte) : Statement (.sbcZpx z) := mk 0xF5 rfl rfl rfl rfl
theorem incZpx (z : Byte) : Statement (.incZpx z) := mk 0xF6 rfl rfl rfl rfl
theorem sed : Statement .sed := mk 0xF8 rfl rfl rfl rfl
theorem sbcAby (w : Word) : Statement (.sbcAby w) := mk 0xF9 rfl rfl rfl (congrArg Instr.sbcAby (wordOf_bytes w))
theorem sbcAbx (w : Word) : Statement (.sbcAbx w) := mk 0xFD rfl rfl rfl (congrArg Instr.sbcAbx (wordOf_bytes w))
theorem incAbx (w : Word) : Statement (.incAbx w) := mk 0xFE rfl rfl rfl (congrArg Instr.incAbx (wordOf_bytes w))
theorem undef02 : Statement .undef02 := mk 0x02 rfl rfl rfl rfl
theorem undef03 : Statement .undef03 := mk 0x03 rfl rfl rfl rfl
theorem undef04 : Statement .undef04 := mk 0x04 rfl rfl rfl rfl
theorem undef07 : Statement .undef07 := mk 0x07 rfl rfl rfl rfl
theorem undef0B : Statement .undef0B := mk 0x0B rfl rfl rfl rfl
theorem undef0C : Statement .undef0C := mk 0x0C rfl rfl rfl rfl
theorem undef0F : Statement .undef0F := mk 0x0F rfl rfl rfl rfl
theorem undef12 : Statement .undef12 := mk 0x12 rfl rfl rfl rfl
theorem undef13 : Statement .undef13 := mk 0x13 rfl rfl rfl rfl
theorem undef14 : Statement .undef14 := mk 0x14 rfl rfl rfl rfl
theorem undef17 : Statement .undef17 := mk 0x17 rfl rfl rfl rfl
theorem undef1A : Statement .undef1A := mk 0x1A rfl rfl rfl rfl
theorem undef1B : Statement .undef1B := mk 0x1B rfl rfl rfl rfl
theorem undef1C : Statement .undef1C := mk 0x1C rfl rfl rfl rfl
theorem undef1F : Statement .undef1F := mk 0x1F rfl rfl rfl rfl
theorem undef22 : Statement .undef22 := mk 0x22 rfl rfl rfl rfl
theorem undef23 : Statement .undef23 := mk 0x23 rfl rfl rfl rfl
theorem undef27 : Statement .undef27 := mk 0x27 rfl rfl rfl rfl
theorem undef2B : Statement .undef2B := mk 0x2B rfl rfl rfl rfl
theorem undef2F : Statement .undef2F := mk 0x2F rfl rfl rfl rfl
theorem undef32 : Statement .undef32 := mk 0x32 rfl rfl rfl rfl
theorem undef33 : Statement .undef33 := mk 0x33 rfl rfl rfl rfl
theorem undef34 : Statement .undef34 := mk 0x34 rfl rfl rfl rfl
theorem undef37 : Statement .undef37 := mk 0x37 rfl rfl rfl rfl
theorem undef3A : Statement .undef3A := mk 0x3A rfl rfl rfl rfl
theorem undef3B : Statement .undef3B := mk 0x3B rfl rfl rfl rfl
theorem undef3C : Statement .undef3C := mk 0x3C rfl rfl rfl rfl
theorem undef3F : Statement .undef3F := mk 0x3F rfl rfl rfl rfl
theorem undef42 : Statement .undef42 := mk 0x42 rfl rfl rfl rfl
theorem undef43 : Statement .undef43 := mk 0x43 rfl rfl rfl rfl
theorem undef44 : Statement .undef44 := mk 0x44 rfl rfl rfl rfl
theorem undef47 : Statement .undef47 := mk 0x47 rfl rfl rfl rfl
theorem undef4B : Statement .undef4B := mk 0x4B rfl rfl rfl rfl
theorem undef4F : Statement .undef4F := mk 0x4F rfl rfl rfl rfl
theorem undef52 : Statement .undef52 := mk 0x52 rfl rfl rfl rfl
theorem undef53 : Statement .undef53 := mk 0x53 rfl rfl rfl rfl
theorem undef54 : Statement .undef54 := mk 0x54 rfl rfl rfl rfl
theorem undef57 : Statement .undef57 := mk 0x57 rfl rfl rfl rfl
theorem undef5A : Statement .undef5A := mk 0x5A rfl rfl rfl rfl
theorem undef5B : Statement .undef5B := mk 0x5B rfl rfl rfl rfl
theorem undef5C : Statement .undef5C := mk 0x5C rfl rfl rfl rfl
theorem undef5F : Statement .undef5F := mk 0x5F rfl rfl rfl rfl
theorem undef62 : Statement .undef62 := mk 0x62 rfl rfl rfl rfl
theorem undef63 : Statement .undef63 := mk 0x63 rfl rfl rfl rfl
theorem undef64 : Statement .undef64 := mk 0x64 rfl rfl rfl rfl
theorem undef67 : Statement .undef67 := mk 0x67 rfl rfl rfl rfl
theorem undef6B : Statement .undef6B := mk 0x6B rfl rfl rfl rfl
theorem undef6F : Statement .undef6F := mk 0x6F rfl rfl rfl rfl
theorem undef72 : Statement .undef72 := mk 0x72 rfl rfl rfl rfl
theorem undef73 : Statement .undef73 := mk 0x73 rfl rfl rfl rfl
theorem undef74 : Statement .undef74 := mk 0x74 rfl rfl rfl rfl
theorem undef77 : Statement .undef77 := mk 0x77 rfl rfl rfl rfl
theorem undef7A : Statement .undef7A := mk 0x7A rfl rfl rfl rfl
theorem undef7B : Statement .undef7B := mk 0x7B rfl rfl rfl rfl
theorem undef7C : Statement .undef7C := mk 0x7C rfl rfl rfl rfl
theorem undef7F : Statement .undef7F := mk 0x7F rfl rfl rfl rfl
theorem undef80 : Statement .undef80 := mk 0x80 rfl rfl rfl rfl
theorem undef82 : Statement .undef82 := mk 0x82 rfl rfl rfl rfl
theorem undef83 : Statement .undef83 := mk 0x83 rfl rfl rfl rfl
theorem undef87 : Statement .undef87 := mk 0x87 rfl rfl rfl rfl
theorem undef89 : Statement .undef89 := mk 0x89 rfl rfl rfl rfl
theorem undef8B : Statement .undef8B := mk 0x8B rfl rfl rfl rfl
theorem undef8F : Statement .undef8F := mk 0x8F rfl rfl rfl rfl
theorem undef92 : Statement .undef92 := mk 0x92 rfl rfl rfl rfl
theorem undef93 : Statement .undef93 := mk 0x93 rfl rfl rfl rfl
theorem undef97 : Statement .undef97 := mk 0x97 rfl rfl rfl rfl
theorem undef9B : Statement .undef9B := mk 0x9B rfl rfl rfl rfl
theorem undef9C : Statement .undef9C := mk 0x9C rfl rfl rfl rfl
theorem undef9E : Statement .undef9E := mk 0x9E rfl rfl rfl rfl
theorem undef9F : Statement .undef9F := mk 0x9F rfl rfl rfl rfl
theorem undefA3 : Statement .undefA3 := mk 0xA3 rfl rfl rfl rfl
theorem undefA7 : Statement .undefA7 := mk 0xA7 rfl rfl rfl rfl
theorem undefAB : Statement .undefAB := mk 0xAB rfl rfl rfl rfl
theorem undefAF : Statement .undefAF := mk 0xAF rfl rfl rfl rfl
theorem undefB2 : Statement .undefB2 := mk 0xB2 rfl rfl rfl rfl
theorem undefB3 : Statement .undefB3 := mk 0xB3 rfl rfl rfl rfl
theorem undefB7 : Statement .undefB7 := mk 0xB7 rfl rfl rfl rfl
theorem undefBB : Statement .undefBB := mk 0xBB rfl rfl rfl rfl
theorem undefBF : Statement .undefBF := mk 0xBF rfl rfl rfl rfl
theorem undefC2 : Statement .undefC2 := mk 0xC2 rfl rfl rfl rfl
theorem undefC3 : Statement .undefC3 := mk 0xC3 rfl rfl rfl rfl
theorem undefC7 : Statement .undefC7 := mk 0xC7 rfl rfl rfl rfl
theorem undefCB : Statement .undefCB := mk 0xCB rfl rfl rfl rfl
theorem undefCF : Statement .undefCF := mk 0xCF rfl rfl rfl rfl
theorem undefD2 : Statement .undefD2 := mk 0xD2 rfl rfl rfl rfl
theorem undefD3 : Statement .undefD3 := mk 0xD3 rfl rfl rfl rfl
theorem undefD4 : Statement .undefD4 := mk 0xD4 rfl rfl rfl rfl
theorem undefD7 : Statement .undefD7 := mk 0xD7 rfl rfl rfl rfl
theorem undefDA : Statement .undefDA := mk 0xDA rfl rfl rfl rfl
theorem undefDB : Statement .undefDB := mk 0xDB rfl rfl rfl rfl
theorem undefDC : Statement .undefDC := mk 0xDC rfl rfl rfl rfl
theorem undefDF : Statement .undefDF := mk 0xDF rfl rfl rfl rfl
theorem undefE2 : Statement .undefE2 := mk 0xE2 rfl rfl rfl rfl
theorem undefE3 : Statement .undefE3 := mk 0xE3 rfl rfl rfl rfl
theorem undefE7 : Statement .undefE7 := mk 0xE7 rfl rfl rfl rfl
theorem undefEB : Statement .undefEB := mk 0xEB rfl rfl rfl rfl
theorem undefEF : Statement .undefEF := mk 0xEF rfl rfl rfl rfl
theorem undefF2 : Statement .undefF2 := mk 0xF2 rfl rfl rfl rfl
theorem undefF3 : Statement .undefF3 := mk 0xF3 rfl rfl rfl rfl
theorem undefF4 : Statement .undefF4 := mk 0xF4 rfl rfl rfl rfl
theorem undefF7 : Statement .undefF7 := mk 0xF7 rfl rfl rfl rfl
theorem undefFA : Statement .undefFA := mk 0xFA rfl rfl rfl rfl
theorem undefFB : Statement .undefFB := mk 0xFB rfl rfl rfl rfl
theorem undefFC : Statement .undefFC := mk 0xFC rfl rfl rfl rfl
theorem undefFF : Statement .undefFF := mk 0xFF rfl rfl rfl rfl

end Sys2Proof.Laws.OpcodeByte
end

