-- ==== Sys2Proof/Tests/Slice0.lean ====
section
/-! SUPPORT. Tests: the refusals of WellFormed, the decoding of every opcode, one or two steps of each instruction against the
vectors of 95_test_vectors.md and the examples of the rules, and a witness for the hypotheses of each statement. -/

namespace Sys2Proof.Tests

open Sys2Proof Sys2Proof.Machine

/-- The start state of 95_test_vectors.md: `bytes` at 0x0200, further RAM bytes `mem`, the vectors 0x0200, 0x0300 and 0x0400 in
the OS ROM, inside a `run_frame`. -/
def bench (bytes : List Byte) (mem : List Host.Cell) : State :=
  { State.reset with
    pc := 0x0200
    driver := .runningFrame
    osRom := some [(0x3FFB, 0x04), (0x3FFD, 0x02), (0x3FFF, 0x03)]
    ram := mem.foldl (fun m c => Memory.set m c.1 c.2) (storeBytes 0x0200 bytes []) }

/-- The state one step later. -/
def after (s : State) : State :=
  match step s with
  | .next t => t
  | _ => s

/-- A state in Idle with one host call waiting. -/
def waiting (c : HostCall) (s : State) : State := { s with driver := .idle, calls := [c] }

/-! ## Well-formed forms: one refused form for each list of modes -/

theorem test_wf_refuses_lda_implied : (Form.mk .lda .implied).wf = false := by decide
theorem test_wf_refuses_ldx_zpx : (Form.mk .ldx .zeroPageX).wf = false := by decide
theorem test_wf_refuses_ldy_zpy : (Form.mk .ldy .zeroPageY).wf = false := by decide
theorem test_wf_refuses_sta_immediate : (Form.mk .sta .immediate).wf = false := by decide
theorem test_wf_refuses_stx_zpx : (Form.mk .stx .zeroPageX).wf = false := by decide
theorem test_wf_refuses_sty_abx : (Form.mk .sty .absoluteX).wf = false := by decide
theorem test_wf_refuses_cpx_zpx : (Form.mk .cpx .zeroPageX).wf = false := by decide
theorem test_wf_refuses_bit_immediate : (Form.mk .bit .immediate).wf = false := by decide
theorem test_wf_refuses_rol_immediate : (Form.mk .rol .immediate).wf = false := by decide
theorem test_wf_refuses_inc_accumulator : (Form.mk .inc .accumulator).wf = false := by decide
theorem test_wf_refuses_bne_absolute : (Form.mk .bne .absolute).wf = false := by decide
theorem test_wf_refuses_jmp_zp : (Form.mk .jmp .zeroPage).wf = false := by decide
theorem test_wf_refuses_jsr_indirect : (Form.mk .jsr .absoluteIndirect).wf = false := by decide
theorem test_wf_refuses_nop_immediate : (Form.mk .nop .immediate).wf = false := by decide
theorem test_wf_accepts : (Instr.staZp 0xFF).wf = true ∧ (Instr.undef89).wf = true := by decide

/-! ## Decoding: every opcode of the table of 30_encoding.md R114, by hexadecimal row; operand bytes 0x12, or 0x34 0x12 -/

/-- What each byte string decodes to, the bytes left over with it. -/
def decodings (l : List (List Byte)) : List (Option (Instr × List Byte)) := l.map fun b => (decode b).toOption

theorem test_decode_row0 : decodings [
    [0x00], [0x01, 0x12], [0x02], [0x03], [0x04], [0x05, 0x12], [0x06, 0x12], [0x07], [0x08], [0x09, 0x12], [0x0A],
    [0x0B], [0x0C], [0x0D, 0x34, 0x12], [0x0E, 0x34, 0x12], [0x0F]] = [
    some (.brk, []), some (.oraIzx 0x12, []), some (.undef02, []), some (.undef03, []), some (.undef04, []),
    some (.oraZp 0x12, []), some (.aslZp 0x12, []), some (.undef07, []), some (.php, []), some (.oraImm 0x12, []),
    some (.aslAcc, []), some (.undef0B, []), some (.undef0C, []), some (.oraAbs 0x1234, []), some (.aslAbs 0x1234, []),
    some (.undef0F, [])] := by decide
theorem test_decode_row1 : decodings [
    [0x10, 0x12], [0x11, 0x12], [0x12], [0x13], [0x14], [0x15, 0x12], [0x16, 0x12], [0x17], [0x18], [0x19, 0x34, 0x12],
    [0x1A], [0x1B], [0x1C], [0x1D, 0x34, 0x12], [0x1E, 0x34, 0x12], [0x1F]] = [
    some (.bpl 0x12, []), some (.oraIzy 0x12, []), some (.undef12, []), some (.undef13, []), some (.undef14, []),
    some (.oraZpx 0x12, []), some (.aslZpx 0x12, []), some (.undef17, []), some (.clc, []), some (.oraAby 0x1234, []),
    some (.undef1A, []), some (.undef1B, []), some (.undef1C, []), some (.oraAbx 0x1234, []), some (.aslAbx 0x1234, []),
    some (.undef1F, [])] := by decide
theorem test_decode_row2 : decodings [
    [0x20, 0x34, 0x12], [0x21, 0x12], [0x22], [0x23], [0x24, 0x12], [0x25, 0x12], [0x26, 0x12], [0x27], [0x28],
    [0x29, 0x12], [0x2A], [0x2B], [0x2C, 0x34, 0x12], [0x2D, 0x34, 0x12], [0x2E, 0x34, 0x12], [0x2F]] = [
    some (.jsr 0x1234, []), some (.andIzx 0x12, []), some (.undef22, []), some (.undef23, []), some (.bitZp 0x12, []),
    some (.andZp 0x12, []), some (.rolZp 0x12, []), some (.undef27, []), some (.plp, []), some (.andImm 0x12, []),
    some (.rolAcc, []), some (.undef2B, []), some (.bitAbs 0x1234, []), some (.andAbs 0x1234, []),
    some (.rolAbs 0x1234, []), some (.undef2F, [])] := by decide
theorem test_decode_row3 : decodings [
    [0x30, 0x12], [0x31, 0x12], [0x32], [0x33], [0x34], [0x35, 0x12], [0x36, 0x12], [0x37], [0x38], [0x39, 0x34, 0x12],
    [0x3A], [0x3B], [0x3C], [0x3D, 0x34, 0x12], [0x3E, 0x34, 0x12], [0x3F]] = [
    some (.bmi 0x12, []), some (.andIzy 0x12, []), some (.undef32, []), some (.undef33, []), some (.undef34, []),
    some (.andZpx 0x12, []), some (.rolZpx 0x12, []), some (.undef37, []), some (.sec, []), some (.andAby 0x1234, []),
    some (.undef3A, []), some (.undef3B, []), some (.undef3C, []), some (.andAbx 0x1234, []), some (.rolAbx 0x1234, []),
    some (.undef3F, [])] := by decide
theorem test_decode_row4 : decodings [
    [0x40], [0x41, 0x12], [0x42], [0x43], [0x44], [0x45, 0x12], [0x46, 0x12], [0x47], [0x48], [0x49, 0x12], [0x4A],
    [0x4B], [0x4C, 0x34, 0x12], [0x4D, 0x34, 0x12], [0x4E, 0x34, 0x12], [0x4F]] = [
    some (.rti, []), some (.eorIzx 0x12, []), some (.undef42, []), some (.undef43, []), some (.undef44, []),
    some (.eorZp 0x12, []), some (.lsrZp 0x12, []), some (.undef47, []), some (.pha, []), some (.eorImm 0x12, []),
    some (.lsrAcc, []), some (.undef4B, []), some (.jmpAbs 0x1234, []), some (.eorAbs 0x1234, []),
    some (.lsrAbs 0x1234, []), some (.undef4F, [])] := by decide
theorem test_decode_row5 : decodings [
    [0x50, 0x12], [0x51, 0x12], [0x52], [0x53], [0x54], [0x55, 0x12], [0x56, 0x12], [0x57], [0x58], [0x59, 0x34, 0x12],
    [0x5A], [0x5B], [0x5C], [0x5D, 0x34, 0x12], [0x5E, 0x34, 0x12], [0x5F]] = [
    some (.bvc 0x12, []), some (.eorIzy 0x12, []), some (.undef52, []), some (.undef53, []), some (.undef54, []),
    some (.eorZpx 0x12, []), some (.lsrZpx 0x12, []), some (.undef57, []), some (.cli, []), some (.eorAby 0x1234, []),
    some (.undef5A, []), some (.undef5B, []), some (.undef5C, []), some (.eorAbx 0x1234, []), some (.lsrAbx 0x1234, []),
    some (.undef5F, [])] := by decide
theorem test_decode_row6 : decodings [
    [0x60], [0x61, 0x12], [0x62], [0x63], [0x64], [0x65, 0x12], [0x66, 0x12], [0x67], [0x68], [0x69, 0x12], [0x6A],
    [0x6B], [0x6C, 0x34, 0x12], [0x6D, 0x34, 0x12], [0x6E, 0x34, 0x12], [0x6F]] = [
    some (.rts, []), some (.adcIzx 0x12, []), some (.undef62, []), some (.undef63, []), some (.undef64, []),
    some (.adcZp 0x12, []), some (.rorZp 0x12, []), some (.undef67, []), some (.pla, []), some (.adcImm 0x12, []),
    some (.rorAcc, []), some (.undef6B, []), some (.jmpInd 0x1234, []), some (.adcAbs 0x1234, []),
    some (.rorAbs 0x1234, []), some (.undef6F, [])] := by decide
theorem test_decode_row7 : decodings [
    [0x70, 0x12], [0x71, 0x12], [0x72], [0x73], [0x74], [0x75, 0x12], [0x76, 0x12], [0x77], [0x78], [0x79, 0x34, 0x12],
    [0x7A], [0x7B], [0x7C], [0x7D, 0x34, 0x12], [0x7E, 0x34, 0x12], [0x7F]] = [
    some (.bvs 0x12, []), some (.adcIzy 0x12, []), some (.undef72, []), some (.undef73, []), some (.undef74, []),
    some (.adcZpx 0x12, []), some (.rorZpx 0x12, []), some (.undef77, []), some (.sei, []), some (.adcAby 0x1234, []),
    some (.undef7A, []), some (.undef7B, []), some (.undef7C, []), some (.adcAbx 0x1234, []), some (.rorAbx 0x1234, []),
    some (.undef7F, [])] := by decide
theorem test_decode_row8 : decodings [
    [0x80], [0x81, 0x12], [0x82], [0x83], [0x84, 0x12], [0x85, 0x12], [0x86, 0x12], [0x87], [0x88], [0x89], [0x8A],
    [0x8B], [0x8C, 0x34, 0x12], [0x8D, 0x34, 0x12], [0x8E, 0x34, 0x12], [0x8F]] = [
    some (.undef80, []), some (.staIzx 0x12, []), some (.undef82, []), some (.undef83, []), some (.styZp 0x12, []),
    some (.staZp 0x12, []), some (.stxZp 0x12, []), some (.undef87, []), some (.dey, []), some (.undef89, []),
    some (.txa, []), some (.undef8B, []), some (.styAbs 0x1234, []), some (.staAbs 0x1234, []),
    some (.stxAbs 0x1234, []), some (.undef8F, [])] := by decide
theorem test_decode_row9 : decodings [
    [0x90, 0x12], [0x91, 0x12], [0x92], [0x93], [0x94, 0x12], [0x95, 0x12], [0x96, 0x12], [0x97], [0x98],
    [0x99, 0x34, 0x12], [0x9A], [0x9B], [0x9C], [0x9D, 0x34, 0x12], [0x9E], [0x9F]] = [
    some (.bcc 0x12, []), some (.staIzy 0x12, []), some (.undef92, []), some (.undef93, []), some (.styZpx 0x12, []),
    some (.staZpx 0x12, []), some (.stxZpy 0x12, []), some (.undef97, []), some (.tya, []), some (.staAby 0x1234, []),
    some (.txs, []), some (.undef9B, []), some (.undef9C, []), some (.staAbx 0x1234, []), some (.undef9E, []),
    some (.undef9F, [])] := by decide
theorem test_decode_rowA : decodings [
    [0xA0, 0x12], [0xA1, 0x12], [0xA2, 0x12], [0xA3], [0xA4, 0x12], [0xA5, 0x12], [0xA6, 0x12], [0xA7], [0xA8],
    [0xA9, 0x12], [0xAA], [0xAB], [0xAC, 0x34, 0x12], [0xAD, 0x34, 0x12], [0xAE, 0x34, 0x12], [0xAF]] = [
    some (.ldyImm 0x12, []), some (.ldaIzx 0x12, []), some (.ldxImm 0x12, []), some (.undefA3, []),
    some (.ldyZp 0x12, []), some (.ldaZp 0x12, []), some (.ldxZp 0x12, []), some (.undefA7, []), some (.tay, []),
    some (.ldaImm 0x12, []), some (.tax, []), some (.undefAB, []), some (.ldyAbs 0x1234, []), some (.ldaAbs 0x1234, []),
    some (.ldxAbs 0x1234, []), some (.undefAF, [])] := by decide
theorem test_decode_rowB : decodings [
    [0xB0, 0x12], [0xB1, 0x12], [0xB2], [0xB3], [0xB4, 0x12], [0xB5, 0x12], [0xB6, 0x12], [0xB7], [0xB8],
    [0xB9, 0x34, 0x12], [0xBA], [0xBB], [0xBC, 0x34, 0x12], [0xBD, 0x34, 0x12], [0xBE, 0x34, 0x12], [0xBF]] = [
    some (.bcs 0x12, []), some (.ldaIzy 0x12, []), some (.undefB2, []), some (.undefB3, []), some (.ldyZpx 0x12, []),
    some (.ldaZpx 0x12, []), some (.ldxZpy 0x12, []), some (.undefB7, []), some (.clv, []), some (.ldaAby 0x1234, []),
    some (.tsx, []), some (.undefBB, []), some (.ldyAbx 0x1234, []), some (.ldaAbx 0x1234, []),
    some (.ldxAby 0x1234, []), some (.undefBF, [])] := by decide
theorem test_decode_rowC : decodings [
    [0xC0, 0x12], [0xC1, 0x12], [0xC2], [0xC3], [0xC4, 0x12], [0xC5, 0x12], [0xC6, 0x12], [0xC7], [0xC8], [0xC9, 0x12],
    [0xCA], [0xCB], [0xCC, 0x34, 0x12], [0xCD, 0x34, 0x12], [0xCE, 0x34, 0x12], [0xCF]] = [
    some (.cpyImm 0x12, []), some (.cmpIzx 0x12, []), some (.undefC2, []), some (.undefC3, []), some (.cpyZp 0x12, []),
    some (.cmpZp 0x12, []), some (.decZp 0x12, []), some (.undefC7, []), some (.iny, []), some (.cmpImm 0x12, []),
    some (.dex, []), some (.undefCB, []), some (.cpyAbs 0x1234, []), some (.cmpAbs 0x1234, []),
    some (.decAbs 0x1234, []), some (.undefCF, [])] := by decide
theorem test_decode_rowD : decodings [
    [0xD0, 0x12], [0xD1, 0x12], [0xD2], [0xD3], [0xD4], [0xD5, 0x12], [0xD6, 0x12], [0xD7], [0xD8], [0xD9, 0x34, 0x12],
    [0xDA], [0xDB], [0xDC], [0xDD, 0x34, 0x12], [0xDE, 0x34, 0x12], [0xDF]] = [
    some (.bne 0x12, []), some (.cmpIzy 0x12, []), some (.undefD2, []), some (.undefD3, []), some (.undefD4, []),
    some (.cmpZpx 0x12, []), some (.decZpx 0x12, []), some (.undefD7, []), some (.cld, []), some (.cmpAby 0x1234, []),
    some (.undefDA, []), some (.undefDB, []), some (.undefDC, []), some (.cmpAbx 0x1234, []), some (.decAbx 0x1234, []),
    some (.undefDF, [])] := by decide
theorem test_decode_rowE : decodings [
    [0xE0, 0x12], [0xE1, 0x12], [0xE2], [0xE3], [0xE4, 0x12], [0xE5, 0x12], [0xE6, 0x12], [0xE7], [0xE8], [0xE9, 0x12],
    [0xEA], [0xEB], [0xEC, 0x34, 0x12], [0xED, 0x34, 0x12], [0xEE, 0x34, 0x12], [0xEF]] = [
    some (.cpxImm 0x12, []), some (.sbcIzx 0x12, []), some (.undefE2, []), some (.undefE3, []), some (.cpxZp 0x12, []),
    some (.sbcZp 0x12, []), some (.incZp 0x12, []), some (.undefE7, []), some (.inx, []), some (.sbcImm 0x12, []),
    some (.nop, []), some (.undefEB, []), some (.cpxAbs 0x1234, []), some (.sbcAbs 0x1234, []),
    some (.incAbs 0x1234, []), some (.undefEF, [])] := by decide
theorem test_decode_rowF : decodings [
    [0xF0, 0x12], [0xF1, 0x12], [0xF2], [0xF3], [0xF4], [0xF5, 0x12], [0xF6, 0x12], [0xF7], [0xF8], [0xF9, 0x34, 0x12],
    [0xFA], [0xFB], [0xFC], [0xFD, 0x34, 0x12], [0xFE, 0x34, 0x12], [0xFF]] = [
    some (.beq 0x12, []), some (.sbcIzy 0x12, []), some (.undefF2, []), some (.undefF3, []), some (.undefF4, []),
    some (.sbcZpx 0x12, []), some (.incZpx 0x12, []), some (.undefF7, []), some (.sed, []), some (.sbcAby 0x1234, []),
    some (.undefFA, []), some (.undefFB, []), some (.undefFC, []), some (.sbcAbx 0x1234, []), some (.incAbx 0x1234, []),
    some (.undefFF, [])] := by decide

theorem test_decode_leaves_the_rest : decodings [[0x00, 0xEA], [0x89, 0x12], [0xA9, 0x41, 0x60]] =
    [some (.brk, [0xEA]), some (.undef89, [0x12]), some (.ldaImm 0x41, [0x60])] := by decide
theorem test_decode_needs_its_operand : decodings [[], [0xA9], [0xAD, 0x34]] = [none, none, none] := by decide
theorem test_encode : encode (.ldaAbx 0x1234) = [0xBD, 0x34, 0x12] ∧ encode (.bne 0xF8) = [0xD0, 0xF8] ∧
    encode .undefFF = [0xFF] := by decide
theorem test_table_word : decodeTableWord 8 0x02 = some .undef02 ∧ decodeTableWord 16 0x41A9 = some (.ldaImm 0x41) ∧
    decodeTableWord 24 0x12346C = some (.jmpInd 0x1234) ∧ decodeTableWord 8 0xFFA9 = some (.ldaImm 0) := by decide
theorem test_placed_word_runs : let t := after (State.reset.withFetchWord 16 0x41A9)
    t.a = 0x41 ∧ t.pc = 0x0202 ∧ t.currentInstruction = 0xA9 := by decide
theorem test_placed_word_runs_absolute : let t := after (State.reset.withFetchWord 24 0x00C04C)
    t.pc = 0x00C0 ∧ t.cycleTime = 3 := by decide

/-! ## Cycles: the column of 30_encoding.md R114, X = Y = 0 and P = 0x24, by hexadecimal row -/

/-- The cycles of one step of each opcode, with the operand bytes 0x12 and 0x00. -/
def costs (l : List Byte) : List Nat := l.map fun op => (after (bench [op, 0x12, 0x00] [(0x12, 0), (0x13, 0)])).cycleTime

theorem test_cycles_row0 : costs [0x00, 0x01, 0x02, 0x03, 0x04, 0x05, 0x06, 0x07, 0x08, 0x09, 0x0A, 0x0B, 0x0C, 0x0D, 0x0E, 0x0F] =
    [7, 6, 2, 2, 2, 3, 5, 2, 3, 2, 2, 2, 2, 4, 6, 2] := by decide
theorem test_cycles_row1 : costs [0x10, 0x11, 0x12, 0x13, 0x14, 0x15, 0x16, 0x17, 0x18, 0x19, 0x1A, 0x1B, 0x1C, 0x1D, 0x1E, 0x1F] =
    [3, 5, 2, 2, 2, 4, 6, 2, 2, 4, 2, 2, 2, 4, 7, 2] := by decide
theorem test_cycles_row2 : costs [0x20, 0x21, 0x22, 0x23, 0x24, 0x25, 0x26, 0x27, 0x28, 0x29, 0x2A, 0x2B, 0x2C, 0x2D, 0x2E, 0x2F] =
    [6, 6, 2, 2, 3, 3, 5, 2, 4, 2, 2, 2, 4, 4, 6, 2] := by decide
theorem test_cycles_row3 : costs [0x30, 0x31, 0x32, 0x33, 0x34, 0x35, 0x36, 0x37, 0x38, 0x39, 0x3A, 0x3B, 0x3C, 0x3D, 0x3E, 0x3F] =
    [2, 5, 2, 2, 2, 4, 6, 2, 2, 4, 2, 2, 2, 4, 7, 2] := by decide
theorem test_cycles_row4 : costs [0x40, 0x41, 0x42, 0x43, 0x44, 0x45, 0x46, 0x47, 0x48, 0x49, 0x4A, 0x4B, 0x4C, 0x4D, 0x4E, 0x4F] =
    [6, 6, 2, 2, 2, 3, 5, 2, 3, 2, 2, 2, 3, 4, 6, 2] := by decide
theorem test_cycles_row5 : costs [0x50, 0x51, 0x52, 0x53, 0x54, 0x55, 0x56, 0x57, 0x58, 0x59, 0x5A, 0x5B, 0x5C, 0x5D, 0x5E, 0x5F] =
    [3, 5, 2, 2, 2, 4, 6, 2, 2, 4, 2, 2, 2, 4, 7, 2] := by decide
theorem test_cycles_row6 : costs [0x60, 0x61, 0x62, 0x63, 0x64, 0x65, 0x66, 0x67, 0x68, 0x69, 0x6A, 0x6B, 0x6C, 0x6D, 0x6E, 0x6F] =
    [6, 6, 2, 2, 2, 3, 5, 2, 4, 2, 2, 2, 5, 4, 6, 2] := by decide
theorem test_cycles_row7 : costs [0x70, 0x71, 0x72, 0x73, 0x74, 0x75, 0x76, 0x77, 0x78, 0x79, 0x7A, 0x7B, 0x7C, 0x7D, 0x7E, 0x7F] =
    [2, 5, 2, 2, 2, 4, 6, 2, 2, 4, 2, 2, 2, 4, 7, 2] := by decide
theorem test_cycles_row8 : costs [0x80, 0x81, 0x82, 0x83, 0x84, 0x85, 0x86, 0x87, 0x88, 0x89, 0x8A, 0x8B, 0x8C, 0x8D, 0x8E, 0x8F] =
    [2, 6, 2, 2, 3, 3, 3, 2, 2, 2, 2, 2, 4, 4, 4, 2] := by decide
theorem test_cycles_row9 : costs [0x90, 0x91, 0x92, 0x93, 0x94, 0x95, 0x96, 0x97, 0x98, 0x99, 0x9A, 0x9B, 0x9C, 0x9D, 0x9E, 0x9F] =
    [3, 5, 2, 2, 4, 4, 4, 2, 2, 4, 2, 2, 2, 4, 2, 2] := by decide
theorem test_cycles_rowA : costs [0xA0, 0xA1, 0xA2, 0xA3, 0xA4, 0xA5, 0xA6, 0xA7, 0xA8, 0xA9, 0xAA, 0xAB, 0xAC, 0xAD, 0xAE, 0xAF] =
    [2, 6, 2, 2, 3, 3, 3, 2, 2, 2, 2, 2, 4, 4, 4, 2] := by decide
theorem test_cycles_rowB : costs [0xB0, 0xB1, 0xB2, 0xB3, 0xB4, 0xB5, 0xB6, 0xB7, 0xB8, 0xB9, 0xBA, 0xBB, 0xBC, 0xBD, 0xBE, 0xBF] =
    [2, 5, 2, 2, 4, 4, 4, 2, 2, 4, 2, 2, 4, 4, 4, 2] := by decide
theorem test_cycles_rowC : costs [0xC0, 0xC1, 0xC2, 0xC3, 0xC4, 0xC5, 0xC6, 0xC7, 0xC8, 0xC9, 0xCA, 0xCB, 0xCC, 0xCD, 0xCE, 0xCF] =
    [2, 6, 2, 2, 3, 3, 5, 2, 2, 2, 2, 2, 4, 4, 6, 2] := by decide
theorem test_cycles_rowD : costs [0xD0, 0xD1, 0xD2, 0xD3, 0xD4, 0xD5, 0xD6, 0xD7, 0xD8, 0xD9, 0xDA, 0xDB, 0xDC, 0xDD, 0xDE, 0xDF] =
    [3, 5, 2, 2, 2, 4, 6, 2, 2, 4, 2, 2, 2, 4, 7, 2] := by decide
theorem test_cycles_rowE : costs [0xE0, 0xE1, 0xE2, 0xE3, 0xE4, 0xE5, 0xE6, 0xE7, 0xE8, 0xE9, 0xEA, 0xEB, 0xEC, 0xED, 0xEE, 0xEF] =
    [2, 6, 2, 2, 3, 3, 5, 2, 2, 2, 2, 2, 4, 4, 6, 2] := by decide
theorem test_cycles_rowF : costs [0xF0, 0xF1, 0xF2, 0xF3, 0xF4, 0xF5, 0xF6, 0xF7, 0xF8, 0xF9, 0xFA, 0xFB, 0xFC, 0xFD, 0xFE, 0xFF] =
    [2, 5, 2, 2, 2, 4, 6, 2, 2, 4, 2, 2, 2, 4, 7, 2] := by decide

/-! ## One step of each instruction; the comment names the vector of 95_test_vectors.md or the rule whose example it is -/

-- E2
theorem test_lda_imm :
    let t := after (bench [0xA9, 0x41] [])
    t.a = 0x41 ∧ t.p = 0x24 ∧ t.pc = 0x0202 ∧ t.cycleTime = 2 := by decide
-- L8
theorem test_lda_izx_wraps :
    let t := after { bench [0xA1, 0xFE] [(0x00FF, 0x34), (0x0000, 0x12), (0x1234, 0x99)] with x := 0x01 }
    t.a = 0x99 ∧ t.p = 0xA4 ∧ t.cycleTime = 6 := by decide
-- L4
theorem test_ldx_zpy_wraps :
    let t := after { bench [0xB6, 0xFF] [(0x0001, 0x66)] with y := 0x02 }
    t.x = 0x66 ∧ t.cycleTime = 4 := by decide
-- R202
theorem test_ldx_imm :
    let t := after (bench [0xA2, 0x80] [])
    t.x = 0x80 ∧ getFlag t.p .n = true ∧ getFlag t.p .z = false ∧ t.cycleTime = 2 := by decide
-- R203
theorem test_ldy_imm :
    let t := after (bench [0xA0, 0x00] [])
    t.y = 0x00 ∧ getFlag t.p .z = true ∧ getFlag t.p .n = false ∧ t.cycleTime = 2 := by decide
-- L17
theorem test_ldy_imm_negative :
    let t := after (bench [0xA0, 0xFF] [])
    t.y = 0xFF ∧ t.p = 0xA4 ∧ t.cycleTime = 2 := by decide
-- L11
theorem test_sta_abx_crosses :
    let t := after { bench [0x9D, 0xF0, 0x12] [] with x := 0x20, a := 0xAB }
    peek t 0x1310 = 0xAB ∧ t.cycleTime = 5 := by decide
-- L14
theorem test_sta_izy :
    let t := after { bench [0x91, 0x40] [(0x0040, 0xF0), (0x0041, 0x12)] with a := 0xCD }
    peek t 0x12F0 = 0xCD ∧ t.cycleTime = 5 := by decide
-- R205
theorem test_stx_zpy_wraps :
    let t := after { bench [0x96, 0xF8] [] with x := 0x07, y := 0x10 }
    peek t 0x0008 = 0x07 ∧ t.cycleTime = 4 := by decide
-- L15
theorem test_stx_zp :
    let t := after { bench [0x86, 0x10] [] with x := 0x5A }
    peek t 0x0010 = 0x5A ∧ t.p = 0x24 ∧ t.cycleTime = 3 := by decide
-- R206
theorem test_sty_abs :
    let t := after { bench [0x8C, 0x34, 0x12] [] with y := 0x99 }
    peek t 0x1234 = 0x99 ∧ t.cycleTime = 4 := by decide
-- L16
theorem test_sty_rom_discarded :
    let t := after { bench [0x8C, 0x00, 0x80] [] with y := 0x01 }
    t.ram = [(0x0200, 0x8C), (0x0201, 0x00), (0x0202, 0x80)] ∧ t.cycleTime = 4 := by decide

-- addressing modes with a page crossing or a wrap
-- L3
theorem test_mode_zpx_wraps :
    let t := after { bench [0xB5, 0xF0] [(0x0010, 0x77)] with x := 0x20 }
    t.a = 0x77 ∧ t.cycleTime = 4 := by decide
-- L5
theorem test_mode_abx_crosses :
    let t := after { bench [0xBD, 0xF0, 0x12] [(0x1310, 0x11)] with x := 0x20 }
    t.a = 0x11 ∧ t.cycleTime = 5 := by decide
-- L6
theorem test_mode_abx_same_page :
    let t := after { bench [0xBD, 0x00, 0x12] [(0x1220, 0x12)] with x := 0x20 }
    t.a = 0x12 ∧ t.cycleTime = 4 := by decide
-- L7
theorem test_mode_aby_wraps :
    let t := after { bench [0xB9, 0xFF, 0xFF] [(0x0000, 0x13)] with y := 0x01 }
    t.a = 0x13 ∧ t.cycleTime = 5 := by decide
-- L9
theorem test_mode_izy_crosses :
    let t := after { bench [0xB1, 0x40] [(0x0040, 0xF0), (0x0041, 0x12), (0x1310, 0x55)] with y := 0x20 }
    t.a = 0x55 ∧ t.cycleTime = 6 := by decide
-- L10
theorem test_mode_izy_pointer_wraps :
    let t := after (bench [0xB1, 0xFF] [(0x00FF, 0x00), (0x0000, 0x30), (0x3000, 0x44)])
    t.a = 0x44 ∧ t.cycleTime = 5 := by decide

-- arithmetic
-- R220
theorem test_adc_overflow :
    let t := after { bench [0x69, 0x01] [] with a := 0x7F }
    t.a = 0x80 ∧ t.p = 0xE4 ∧ t.cycleTime = 2 := by decide
-- 95 2.2, ADC D=1 58+46
theorem test_adc_decimal :
    let t := after { bench [0x69, 0x46] [] with a := 0x58, p := 0x2C }
    t.a = 0x04 ∧ t.p = 0xEC := by decide
-- R223
theorem test_sbc_borrow :
    let t := after { bench [0xE9, 0x06] [] with a := 0x05, p := 0x25 }
    t.a = 0xFF ∧ t.p = 0xA4 ∧ t.cycleTime = 2 := by decide
-- R225
theorem test_sbc_decimal :
    let t := after { bench [0xE9, 0x01] [] with a := 0x00, p := 0x2D }
    t.a = 0x99 ∧ t.p = 0xAC := by decide
-- 95 2.2, decimal ADC at both settings of DECIMAL_FLAGS
theorem test_adc_decimal_flags_settings :
    let doc := adcDecimal .doc 0x89 0x76 false
    let nmos := adcDecimal .nmos 0x89 0x76 false
    doc.val = 0x65 ∧ doc.n = true ∧ doc.c = false ∧ nmos.val = 0x65 ∧ nmos.n = false ∧ nmos.c = true := by decide
-- 95 2.1, L12 and L14 at INDEXED_STORE_TIMING = NMOS
theorem test_store_timing_settings : writeCost .nmos 4 (.abx 0x1200) false = 5 ∧ writeCost .nmos 5 (.izy 0x40) true = 6 ∧
    writeCost .nmos 3 (.zp 0x10) false = 3 := by decide
-- 95 2.3, the last column
theorem test_compare_v_settings : compareFlags false 0x80 0x01 0x64 = 0x65 ∧ compareFlags false 0x10 0x10 0x64 = 0x67 := by
  decide
-- 95 2.9, J2 and J6 at the other settings
theorem test_jump_and_brk_settings : pointerHigh false 0x03FF = 0x0400 ∧ pointerHigh true 0x03FF = 0x0300 ∧
    peek (softwareInterrupt 1 { bench [0x00] [] with pc := 0x0201 }) 0x01FE = 0x01 := by decide
-- R228
theorem test_cmp_overflow :
    let t := after { bench [0xC9, 0x01] [] with a := 0x80 }
    t.a = 0x80 ∧ t.p = 0x65 ∧ t.cycleTime = 2 := by decide
-- 95 2.3, 10 and 20
theorem test_cmp_below : let t := after { bench [0xC9, 0x20] [] with a := 0x10 }; t.p = 0xA4 := by decide
-- R229
theorem test_cpx_equal : let t := after { bench [0xE0, 0x08] [] with x := 0x08 }; t.p = 0x27 ∧ t.x = 0x08 := by decide
-- R230
theorem test_cpy_below : let t := after (bench [0xC0, 0x01] []); t.p = 0xA4 ∧ t.y = 0x00 := by decide

-- logic
-- R250
theorem test_and_imm :
    let t := after { bench [0x29, 0x3C] [] with a := 0xF0 }
    t.a = 0x30 ∧ t.p = 0x24 ∧ t.cycleTime = 2 := by decide
-- G2
theorem test_ora_imm :
    let t := after { bench [0x09, 0x80] [] with a := 0x01 }
    t.a = 0x81 ∧ t.p = 0xA4 ∧ t.cycleTime = 2 := by decide
-- G3
theorem test_eor_imm :
    let t := after { bench [0x49, 0xFF] [] with a := 0x0F }
    t.a = 0xF0 ∧ t.p = 0xA4 ∧ t.cycleTime = 2 := by decide
-- R252
theorem test_eor_zero : let t := after { bench [0x49, 0xFF] [] with a := 0xFF }; t.a = 0x00 ∧ t.p = 0x26 := by decide
-- G4
theorem test_bit_flags :
    let t := after { bench [0x24, 0x10] [(0x0010, 0xC0)] with a := 0x01 }
    t.a = 0x01 ∧ t.p = 0xE6 ∧ t.cycleTime = 3 := by decide
-- G5
theorem test_bit_v_only : let t := after { bench [0x24, 0x10] [(0x0010, 0x40)] with a := 0xFF }; t.p = 0x64 := by decide

-- shifts, increments
-- 95 2.5
theorem test_asl_acc :
    let t := after { bench [0x0A] [] with a := 0x81, p := 0x25 }
    t.a = 0x02 ∧ t.p = 0x25 ∧ t.cycleTime = 2 := by decide
-- S5
theorem test_asl_abx_fixed_cost :
    let t := after { bench [0x1E, 0x00, 0x12] [(0x1201, 0x40)] with x := 0x01 }
    peek t 0x1201 = 0x80 ∧ t.p = 0xA4 ∧ t.cycleTime = 7 := by decide
-- R272
theorem test_lsr_zp :
    let t := after (bench [0x46, 0x10] [(0x0010, 0x03)])
    peek t 0x0010 = 0x01 ∧ t.p = 0x25 ∧ t.cycleTime = 5 := by decide
-- 95 2.5
theorem test_lsr_acc :
    let t := after { bench [0x4A] [] with a := 0x81, p := 0x25 }
    t.a = 0x40 ∧ t.p = 0x25 := by decide
-- 95 2.5
theorem test_rol_acc :
    let t := after { bench [0x2A] [] with a := 0x81, p := 0x25 }
    t.a = 0x03 ∧ t.p = 0x25 := by decide
-- 95 2.5
theorem test_rol_carry_in :
    let t := after { bench [0x2A] [] with a := 0x00, p := 0x25 }
    t.a = 0x01 ∧ t.p = 0x24 := by decide
-- 95 2.5
theorem test_ror_acc :
    let t := after { bench [0x6A] [] with a := 0x81, p := 0x25 }
    t.a = 0xC0 ∧ t.p = 0xA5 := by decide
-- R274
theorem test_ror_zero : let t := after { bench [0x6A] [] with a := 0x01 }; t.a = 0x00 ∧ t.p = 0x27 := by decide
-- R275
theorem test_inc_zpx :
    let t := after { bench [0xF6, 0x40] [(0x0041, 0x7F)] with x := 0x01 }
    peek t 0x0041 = 0x80 ∧ t.p = 0xA4 ∧ t.cycleTime = 6 := by decide
-- S6
theorem test_inc_peripheral_reads_then_writes :
    let t := after { bench [0xEE, 0x04, 0xFE] [] with sheila := State.reset.sheila.set 4 0x41, intStatus := 0x32, enableMask := 0x30 }
    t.sheila[4] = 0x42 ∧ t.intStatus = 0x02 ∧ t.irqPending = false ∧ t.cycleTime = 6 := by decide
-- S3
theorem test_dec_wraps :
    let t := after (bench [0xC6, 0x10] [(0x0010, 0x00)])
    peek t 0x0010 = 0xFF ∧ t.p = 0xA4 ∧ t.cycleTime = 5 := by decide
-- R276
theorem test_dec_abx :
    let t := after { bench [0xDE, 0xF0, 0x12] [(0x1300, 0x01)] with x := 0x10 }
    peek t 0x1300 = 0x00 ∧ t.p = 0x26 ∧ t.cycleTime = 7 := by decide

-- registers and flags: the examples of R290 to R307
-- R290
theorem test_tax :
    let t := after { bench [0xAA] [] with x := 0x05 }
    t.x = 0x00 ∧ t.p = 0x26 ∧ t.cycleTime = 2 := by decide
-- R291
theorem test_tay :
    let t := after { bench [0xA8] [] with a := 0x90 }
    t.y = 0x90 ∧ t.p = 0xA4 ∧ t.cycleTime = 2 := by decide
-- R292
theorem test_txa :
    let t := after { bench [0x8A] [] with x := 0x01 }
    t.a = 0x01 ∧ t.p = 0x24 ∧ t.cycleTime = 2 := by decide
-- R293
theorem test_tya :
    let t := after { bench [0x98] [] with y := 0xFF }
    t.a = 0xFF ∧ t.p = 0xA4 ∧ t.cycleTime = 2 := by decide
-- R294
theorem test_tsx :
    let t := after { bench [0xBA] [] with sp := 0xFD }
    t.x = 0xFD ∧ t.p = 0xA4 ∧ t.cycleTime = 2 := by decide
-- 95 2.6
theorem test_txs :
    let t := after { bench [0x9A] [] with x := 0x00 }
    t.sp = 0x00 ∧ t.p = 0x24 ∧ t.cycleTime = 2 := by decide
-- 95 2.6
theorem test_inx :
    let t := after { bench [0xE8] [] with x := 0xFF }
    t.x = 0x00 ∧ t.p = 0x26 ∧ t.cycleTime = 2 := by decide
-- R297
theorem test_iny :
    let t := after { bench [0xC8] [] with y := 0x7F }
    t.y = 0x80 ∧ t.p = 0xA4 ∧ t.cycleTime = 2 := by decide
-- R298
theorem test_dex :
    let t := after { bench [0xCA] [] with x := 0x01 }
    t.x = 0x00 ∧ t.p = 0x26 ∧ t.cycleTime = 2 := by decide
-- R299
theorem test_dey :
    let t := after { bench [0x88] [] with y := 0x00 }
    t.y = 0xFF ∧ t.p = 0xA4 ∧ t.cycleTime = 2 := by decide
-- R300
theorem test_clc : let t := after { bench [0x18] [] with p := 0x25 }; t.p = 0x24 ∧ t.cycleTime = 2 := by decide
-- R301
theorem test_sec : let t := after (bench [0x38] []); t.p = 0x25 ∧ t.cycleTime = 2 := by decide
-- R302
theorem test_cli : let t := after (bench [0x58] []); t.p = 0x20 ∧ t.cycleTime = 2 := by decide
-- R303
theorem test_sei : let t := after { bench [0x78] [] with p := 0x20 }; t.p = 0x24 ∧ t.cycleTime = 2 := by decide
-- R304
theorem test_cld : let t := after { bench [0xD8] [] with p := 0x2C }; t.p = 0x24 ∧ t.cycleTime = 2 := by decide
-- R305
theorem test_sed : let t := after (bench [0xF8] []); t.p = 0x2C ∧ t.cycleTime = 2 := by decide
-- R306
theorem test_clv : let t := after { bench [0xB8] [] with p := 0x64 }; t.p = 0x24 ∧ t.cycleTime = 2 := by decide
-- R307
theorem test_nop : let t := after (bench [0xEA] []); t.pc = 0x0201 ∧ t.p = 0x24 ∧ t.cycleTime = 2 := by decide

-- the stack
-- K1
theorem test_pha_wraps :
    let t := after { bench [0x48] [] with a := 0x77, sp := 0x00 }
    peek t 0x0100 = 0x77 ∧ t.sp = 0xFF ∧ t.cycleTime = 3 := by decide
-- K3
theorem test_php_forces_bits :
    let t := after { bench [0x08] [] with p := 0x04 }
    peek t 0x01FF = 0x34 ∧ t.p = 0x04 ∧ t.sp = 0xFE ∧ t.cycleTime = 3 := by decide
-- K2
theorem test_pla_wraps :
    let t := after (bench [0x68] [(0x0100, 0x80)])
    t.a = 0x80 ∧ t.p = 0xA4 ∧ t.sp = 0x00 ∧ t.cycleTime = 4 := by decide
-- K4
theorem test_plp_verbatim :
    let t := after { bench [0x28] [(0x01FF, 0xC3)] with sp := 0xFE }
    t.p = 0xC3 ∧ t.sp = 0xFF ∧ t.cycleTime = 4 := by decide

-- branches, jumps
-- B1
theorem test_bpl : let t := after (bench [0x10, 0x04] []); t.pc = 0x0206 ∧ t.cycleTime = 3 := by decide
-- B2
theorem test_bmi : let t := after (bench [0x30, 0x04] []); t.pc = 0x0202 ∧ t.cycleTime = 2 := by decide
-- B3
theorem test_bvc_crosses : let t := after (bench [0x50, 0x80] []); t.pc = 0x0182 ∧ t.cycleTime = 4 := by decide
-- R344
theorem test_bvs : let t := after { bench [0x70, 0x7F] [] with p := 0x64 }; t.pc = 0x0281 ∧ t.cycleTime = 3 := by decide
-- B4
theorem test_bcc_self : let t := after (bench [0x90, 0xFE] []); t.pc = 0x0200 ∧ t.cycleTime = 3 := by decide
-- B5
theorem test_bcs_crosses :
    let t := after { bench [] [(0x02F0, 0xB0), (0x02F1, 0x10)] with pc := 0x02F0, p := 0x25 }
    t.pc = 0x0302 ∧ t.cycleTime = 4 := by decide
-- B6
theorem test_bne_crosses :
    let t := after { bench [] [(0x02FD, 0xD0), (0x02FE, 0x01)] with pc := 0x02FD }
    t.pc = 0x0300 ∧ t.cycleTime = 4 := by decide
-- B7
theorem test_bne_page_of_next :
    let t := after { bench [] [(0x02FE, 0xD0), (0x02FF, 0x00)] with pc := 0x02FE }
    t.pc = 0x0300 ∧ t.cycleTime = 3 := by decide
-- B8
theorem test_beq : let t := after (bench [0xF0, 0x10] []); t.pc = 0x0202 ∧ t.cycleTime = 2 := by decide
-- J1
theorem test_jmp_abs : let t := after (bench [0x4C, 0x00, 0x03] []); t.pc = 0x0300 ∧ t.cycleTime = 3 := by decide
-- J2
theorem test_jmp_ind_page_wrap :
    let t := after (bench [0x6C, 0xFF, 0x03] [(0x03FF, 0x34), (0x0300, 0x12), (0x0400, 0x56)])
    t.pc = 0x1234 ∧ t.cycleTime = 5 := by decide
-- R351
theorem test_jsr :
    let t := after { bench [] [(0x0202, 0x20), (0x0203, 0x10), (0x0204, 0x02)] with pc := 0x0202 }
    peek t 0x01FF = 0x02 ∧ peek t 0x01FE = 0x04 ∧ t.sp = 0xFD ∧ t.pc = 0x0210 ∧ t.cycleTime = 6 := by decide
-- K5
theorem test_jsr_stack_wraps :
    let t := after { bench [0x20, 0x10, 0x02] [] with sp := 0x00 }
    peek t 0x0100 = 0x02 ∧ peek t 0x01FF = 0x02 ∧ t.sp = 0xFE ∧ t.cycleTime = 6 := by decide
-- J4
theorem test_rts :
    let t := after { bench [0x60] [(0x01FF, 0x02), (0x01FE, 0x04)] with sp := 0xFD }
    t.pc = 0x0205 ∧ t.sp = 0xFF ∧ t.cycleTime = 6 := by decide
-- J5
theorem test_brk :
    let t := after (bench [0x00] [])
    peek t 0x01FF = 0x02 ∧ peek t 0x01FE = 0x02 ∧ peek t 0x01FD = 0x34 ∧ t.sp = 0xFC ∧ t.p = 0x34 ∧ t.pc = 0x0300 ∧ t.cycleTime = 7 := by decide
-- J7
theorem test_rti_verbatim :
    let t := after { bench [0x40] [(0x01FD, 0x00), (0x01FE, 0x05), (0x01FF, 0x02)] with sp := 0xFC }
    t.p = 0x00 ∧ t.pc = 0x0206 ∧ t.sp = 0xFF ∧ t.cycleTime = 6 := by decide
-- E3
theorem test_undefined :
    let t := after (bench [0x02] [])
    t.pc = 0x0201 ∧ t.cycleTime = 2 ∧ t.output = [.undefinedOpcode 0x02 0x0200] := by decide

/-! ## Events and breakpoints -/

-- I1
theorem test_nmi_first :
    let t := after { bench [0xEA] [] with nmiPending := true, irqPending := true, p := 0x20 }
    t.pc = 0x0400 ∧ peek t 0x01FF = 0x01 ∧ peek t 0x01FE = 0xFF ∧ peek t 0x01FD = 0x20 ∧ t.p = 0x24 ∧ t.nmiPending = false ∧ t.irqPending = true ∧ t.cycleTime = 7 := by decide
-- I2
theorem test_irq_masked :
    let t := after { bench [0xEA] [] with irqPending := true }
    t.pc = 0x0201 ∧ t.cycleTime = 2 := by decide
-- I4
theorem test_irq_clears_b :
    let t := after { bench [0xEA] [] with irqPending := true, p := 0x38 }
    peek t 0x01FD = 0x28 ∧ t.p = 0x2C ∧ t.pc = 0x0300 ∧ t.irqPending = true := by decide
-- I7
theorem test_irq_before_breakpoint :
    let t := after { bench [0xEA] [] with irqPending := true, p := 0x20, bpKind := .atAddress, bpAddr := 0x0200 }
    t.pc = 0x0300 ∧ t.bpHit = false := by decide
-- P-1
theorem test_address_breakpoint :
    let t := after { bench [0xEA] [] with bpKind := .atAddress, bpAddr := 0x0200 }
    t.pc = 0x0200 ∧ t.bpHit = true ∧ t.cycleTime = 0 := by decide
-- P-2
theorem test_read_breakpoint_after_read :
    let t := after { bench [0xA5, 0x10] [(0x0010, 0x33)] with bpKind := .onRead, bpAddr := 0x0010 }
    t.a = 0x33 ∧ t.pc = 0x0202 ∧ t.bpHit = true ∧ t.cycleTime = 3 := by decide
-- P-4
theorem test_push_hits_write_breakpoint :
    let t := after { bench [0x48] [] with a := 0x05, bpKind := .onWrite, bpAddr := 0x01FF }
    t.sp = 0xFE ∧ t.bpHit = true := by decide
-- E11
theorem test_read_effect_before_hit :
    let t := after { bench [0xAD, 0x04, 0xFE] [] with intStatus := 0x12, bpKind := .onRead, bpAddr := 0xFE04 }
    t.intStatus = 0x02 ∧ t.bpHit = true ∧ t.pc = 0x0203 := by decide

-- P-8: the step passes the address breakpoint and leaves it set
theorem test_host_step :
    let t := after (waiting .step { bench [0xE8] [] with bpKind := .atAddress, bpAddr := 0x0200 })
    t.x = 0x01 ∧ t.pc = 0x0201 ∧ t.cycleTime = 2 ∧ t.bpKind = .atAddress := by decide
-- R481, R451, R454: the step that uses up line 99 raises the RTC
theorem test_host_step_ends_scanline :
    let t := after (waiting .step { bench [0xEA] [] with cycleTime := 126, scanline := 99, enableMask := 0x08 })
    t.cycleTime = 0 ∧ t.scanline = 100 ∧ t.intStatus = 0x0A ∧ t.irqPending = true := by decide
-- R46: `current_instruction` is visible in the snapshot
theorem test_snapshot : (snapshot (after (bench [0xE8] []))).currentInstruction = 0xE8 := by decide
-- E1
theorem test_restart : let t := after (waiting .restart { bench [] [] with a := 7, sp := 0, p := 0xFF, nmiPending := true })
    t.pc = 0x0200 ∧ t.a = 0 ∧ t.p = 0x24 ∧ t.sp = 0xFF ∧ t.nmiPending = false := by decide
-- R474: a source of the wrong length leaves the bank absent
theorem test_short_rom_load : let t := after (waiting (.loadBank 11 [0xA0]) { bench [] [] with
      pagedRoms := State.reset.pagedRoms.set 10 (some []) })
    t.pagedRoms[10] = none ∧ t.output = [.romLoadReturned false] := by decide
-- R474: a clear reports success, and a clear of bank 11 acts on bank 10
theorem test_rom_clear : let t := after (waiting (.clearBank 11) { bench [] [] with
      pagedRoms := State.reset.pagedRoms.set 10 (some []) })
    t.pagedRoms[10] = none ∧ t.output = [.romClearReturned true] := by decide
-- U24: page 11 shows bank 10
theorem test_bank_alias :
    peek { bench [] [] with page := 11, pagedRoms := State.reset.pagedRoms.set 10 (some [(0, 0xA0)]) } 0x8000 = 0xA0 := by
  decide

/-! ## The ULA, the timer, the cassette -/

-- U2
theorem test_status_read : let s := { bench [] [] with intStatus := 0x0A, enableMask := 0x08 }
    peek s 0xFE00 = 0x8B ∧ (readEffect 0xFE00 s).intStatus = 0x08 := by decide
-- U5
theorem test_acknowledge : let t := machineWrite 0xFE05 0x70 { bench [] [] with intStatus := 0x7C, enableMask := 0xFF }
    t.intStatus = 0x30 ∧ t.irqPending = true := by decide
-- U7, U8
theorem test_register_reads :
    let s := { machineWrite 0xFE08 0x56 (bench [] []) with osRom := some [(0x3E01, 0xE1), (0x3E0F, 0xEF)] }
    peek s 0xFE01 = 0xE1 ∧ peek s 0xFE0F = 0xEF ∧ peek s 0xFEF8 = 0x56 := by decide
-- U9, U11
theorem test_mode_change : let t := machineWrite 0xFE07 0x10 (bench [] [])
    t.output.length = 17 ∧ t.output.head? = some (.videoSetMode 2) := by decide
theorem test_enters_write_mode : let t := machineWrite 0xFE07 0x14 { bench [] [] with
      sheila := State.reset.sheila.set 7 0x10, dataShiftHasData := true }
    t.intStatus = 0x22 ∧ t.dataShiftHasData = false ∧ t.output = [] := by decide
-- U16, U17, U21
theorem test_paging_restriction : (machineWrite 0xFE05 0x03 { bench [] [] with page := 10 }).page = 10 ∧
    (machineWrite 0xFE05 0x0C { bench [] [] with page := 10 }).page = 12 ∧
    (machineWrite 0xFE05 0x13 { bench [] [] with page := 8, intStatus := 0x16 }).intStatus = 0x12 := by decide
-- U22
theorem test_start_address :
    startAddress { bench [] [] with sheila := (State.reset.sheila.set 2 0xE0).set 3 0x3F } = 0x7FC0 ∧
    startAddress { bench [] [] with sheila := (State.reset.sheila.set 2 0x1F).set 3 0x40 } = 0x0000 := by decide
-- U23
theorem test_keyboard : let s := { bench [] [] with page := 8, keyboard := #v[1, 2, 4, 8, 1, 2, 4, 8, 1, 2, 4, 8, 1, 2] }
    peek s 0x8000 = 0x0F ∧ peek s 0xBFFF = 0x00 ∧ peek s 0x8FFF = 0x03 ∧ peek s 0x9FFF = 0x02 := by decide
-- R451, R455: display end at line 256, no line drawn
theorem test_display_end : let t := after { bench [] [] with scanline := 255, cycleTime := 130 }
    t.scanline = 256 ∧ t.cycleTime = 2 ∧ t.intStatus = 0x06 ∧ t.output = [] := by decide
-- R450, R431: the frame wraps
theorem test_frame_wraps : let t := after { bench [] [] with scanline := 311, cycleTime := 128 }
    t.scanline = 0 ∧ t.driver = .idle ∧
    t.output = [.videoSetStartAddress 0, .videoDrawScanline 0, .frameReturned .frameComplete] := by decide
-- F3
theorem test_cassette_reads : let t := cassetteTick { bench [] [] with cassetteCounter := 129, enableMask := 0x50
                                                                       sheila := State.reset.sheila.set 7 0x40
                                                                       tape := [.byte 0x3C, .silence] }
    t.sheila[4] = 0x3C ∧ t.intStatus = 0x12 ∧ t.irqPending = true ∧ t.tape = [.silence] ∧
      t.output = [.tapeIsAtEnd, .tapeNextSymbol] := by decide
-- E10
theorem test_cassette_writes : let t := cassetteTick { bench [] [] with cassetteCounter := 129, dataShiftHasData := true
                                                                        sheila := (State.reset.sheila.set 7 0x44).set 4 0xAA }
    t.output = [.tapeStoreByte 0xAA] ∧ t.intStatus = 0x22 ∧ t.dataShiftHasData = false := by decide

/-! ## Witnesses: a state and operands that meet the hypotheses of each statement, its clauses at boundary values -/

theorem witness_DecodeAfterEncode : (Instr.adcAbx 0xFFFF).wf = true ∧ Instr.undefFF.wf = true := by decide

theorem witness_EncodeAfterDecode : decode [0x7D, 0xFF, 0xFF, 0x00] = .ok (.adcAbx 0xFFFF, [0x00]) := rfl

theorem quietRead_of {a : Word} (h : regionOf a ≠ .peripheral ∨ (ulaOffset a ≠ 0 ∧ ulaOffset a ≠ 4)) : QuietRead a :=
  fun hp => h.resolve_left fun hn => hn hp

theorem witness_StepRunsDecodedInstruction : let s := bench [0xAD, 0x34, 0x12] []
    s.InBurst ∧ s.NoEvent ∧ decode [peek s s.pc, peek s (s.pc + 1), peek s (s.pc + 2)] = .ok (.ldaAbs 0x1234, []) ∧
    (Instr.ldaAbs 0x1234).wf = true ∧ (∀ k, k < (Instr.ldaAbs 0x1234).length → QuietRead (s.pc + BitVec.ofNat 16 k)) ∧
    s.bpKind ≠ .onRead := by
  refine ⟨⟨rfl, rfl, by decide⟩, ⟨rfl, .inl rfl, by decide⟩, rfl, rfl, ?_, by decide⟩
  have h : ∀ k, k < 3 → regionOf ((0x0200 : Word) + BitVec.ofNat 16 k) ≠ .peripheral := by decide
  exact fun k hk => quietRead_of (.inl (h k hk))

theorem witness_StepRunsDecodedInstruction_masked : let s := { bench [0xEA] [] with irqPending := true, cycleTime := 127 }
    s.InBurst ∧ s.NoEvent := ⟨⟨rfl, rfl, by decide⟩, ⟨rfl, .inr (by decide), by decide⟩⟩

/-- The state of the benches has the invariant. -/
theorem bench_inv : (bench [0xEA] []).Inv where
  memory := by
    simp [State.memoryWf, bench, State.reset, storeBytes, Memory.set, Memory.wf, Memory.wfFrom, romWf, Rom.wf, ramSize,
      romSize]
  status := by decide
  irqLevel := by decide
  mask := by decide
  scanline := by decide
  cassette := by decide
  time := by decide
  bank := by decide
  keys := by decide

theorem witness_StepKeepsInvariant : (bench [0xEA] []).Inv ∧ ∃ t, step (bench [0xEA] []) = .next t :=
  ⟨bench_inv, _, rfl⟩

theorem witness_RestartState : let s := waiting .restart (bench [] []); s.driver = .idle ∧ s.calls = .restart :: [] := by
  decide

theorem witness_EffectiveAddresses : (bench [] []).bpKind ≠ .onRead := by decide

theorem witness_OperandRead : QuietRead (address (.abs 0xFDFF) (bench [] [])).ea ∧
    QuietRead (address (.abs 0xFE01) (bench [] [])).ea ∧ (bench [] []).bpKind ≠ .onRead :=
  ⟨quietRead_of (.inl (by decide)), quietRead_of (.inr (by decide)), by decide⟩

theorem witness_ReadSideEffects : QuietRead 0xFDFF ∧ QuietRead 0xFE01 ∧ QuietRead 0xFEFF ∧ QuietRead 0xFF00 ∧
    (regionOf 0xFE00 = .peripheral ∧ ulaOffset 0xFE00 = 0) ∧ (regionOf 0xFEF0 = .peripheral ∧ ulaOffset 0xFEF0 = 0) ∧
    (regionOf 0xFE04 = .peripheral ∧ ulaOffset 0xFE04 = 4) ∧ (regionOf 0xFEF4 = .peripheral ∧ ulaOffset 0xFEF4 = 4) :=
  ⟨quietRead_of (.inl (by decide)), quietRead_of (.inr (by decide)), quietRead_of (.inr (by decide)),
    quietRead_of (.inl (by decide)), by decide, by decide, by decide, by decide⟩

theorem witness_WriteThenRead : let rom := fun a : Word => (0x8000 ≤ a.toNat ∧ a.toNat < 0xFE00) ∨ 0xFF00 ≤ a.toNat
    ((0x7FFF : Word).toNat < 0x8000 ∧ (0x7FFE : Word) ≠ 0x7FFF) ∧ rom 0x8000 ∧ rom 0xFDFF ∧ rom 0xFF00 ∧ rom 0xFFFF := by
  decide

theorem witness_RegionReads : let os := fun a : Word => (0xC000 ≤ a.toNat ∧ a.toNat < 0xFE00) ∨ 0xFF00 ≤ a.toNat
    let paged := fun a : Word => 0x8000 ≤ a.toNat ∧ a.toNat < 0xC000
    (0x7FFF : Word).toNat < 0x8000 ∧ os 0xC000 ∧ os 0xFDFF ∧ os 0xFF00 ∧ os 0xFFFF ∧
    (paged 0x8000 ∧ ({ bench [] [] with page := 7 } : State).page ≠ 8) ∧
    (paged 0xBFFF ∧ ({ bench [] [] with page := 8 } : State).page = 8) ∧ 7 < 8 := by decide

theorem witness_LoadResult : let forms := [(Mnemonic.lda, Reg.a), (.ldx, .x), (.ldy, .y)]
    (((Instr.ldaImm 0xFF).mnemonic, Reg.a) ∈ forms ∧ (Instr.ldaImm 0xFF).operand = .source (.imm 0xFF)) ∧
    (((Instr.ldxAby 0xFFFF).mnemonic, Reg.x) ∈ forms ∧ (Instr.ldxAby 0xFFFF).operand = .source (.mem (.aby 0xFFFF))) ∧
    (((Instr.ldyZp 0x00).mnemonic, Reg.y) ∈ forms ∧ (Instr.ldyZp 0x00).operand = .source (.mem (.zp 0x00))) := by decide

theorem witness_StoreResult : let forms := [(Mnemonic.sta, Reg.a), (.stx, .x), (.sty, .y)]
    let ea := fun w => (address (.abs w) (bench [] [])).ea
    (((Instr.staAbs 0x7FFF).mnemonic, Reg.a) ∈ forms ∧ (Instr.staAbs 0x7FFF).operand = .source (.mem (.abs 0x7FFF)) ∧
      regionOf (ea 0x7FFF) = .ram) ∧
    (((Instr.stxAbs 0x8000).mnemonic, Reg.x) ∈ forms ∧ (Instr.stxAbs 0x8000).operand = .source (.mem (.abs 0x8000)) ∧
      regionOf (ea 0x8000) = .pagedRom) ∧
    (((Instr.styAbs 0xFF00).mnemonic, Reg.y) ∈ forms ∧ (Instr.styAbs 0xFF00).operand = .source (.mem (.abs 0xFF00)) ∧
      regionOf (ea 0xFF00) = .osRom) := by decide

theorem witness_AdcBinaryResult : (Instr.adcImm 0xFF).mnemonic = .adc ∧
    (Instr.adcImm 0xFF).operand = .source (.imm 0xFF) ∧ getFlag (bench [] []).p .d = false := by decide

theorem witness_AdcDecimalResult : (Instr.adcIzy 0x40).mnemonic = .adc ∧
    (Instr.adcIzy 0x40).operand = .source (.mem (.izy 0x40)) ∧ getFlag ({ bench [] [] with p := 0x2C } : State).p .d = true := by
  decide

theorem witness_SbcBinaryResult : (Instr.sbcImm 0xFF).mnemonic = .sbc ∧
    (Instr.sbcImm 0xFF).operand = .source (.imm 0xFF) ∧ getFlag (bench [] []).p .d = false := by decide

theorem witness_SbcDecimalResult : (Instr.sbcZpx 0x40).mnemonic = .sbc ∧
    (Instr.sbcZpx 0x40).operand = .source (.mem (.zpx 0x40)) ∧ getFlag ({ bench [] [] with p := 0x2C } : State).p .d = true := by
  decide

theorem witness_DecimalArithmeticIsDecimal : ValidBcd 0x99 ∧ ValidBcd 0x00 := by unfold ValidBcd; decide

theorem witness_CompareResult : let forms := [(Mnemonic.cmp, Reg.a), (.cpx, .x), (.cpy, .y)]
    (((Instr.cmpIzx 0x40).mnemonic, Reg.a) ∈ forms ∧ (Instr.cmpIzx 0x40).operand = .source (.mem (.izx 0x40))) ∧
    (((Instr.cpxImm 0x00).mnemonic, Reg.x) ∈ forms ∧ (Instr.cpxImm 0x00).operand = .source (.imm 0x00)) ∧
    (((Instr.cpyAbs 0xFE00).mnemonic, Reg.y) ∈ forms ∧ (Instr.cpyAbs 0xFE00).operand = .source (.mem (.abs 0xFE00))) := by
  decide

theorem witness_LogicResult : (Instr.andImm 0x00).mnemonic ∈ [Mnemonic.and, .ora, .eor] ∧
    (Instr.andImm 0x00).operand = .source (.imm 0x00) ∧ (Instr.eorAbx 0xFFFF).mnemonic ∈ [Mnemonic.and, .ora, .eor] ∧
    (Instr.eorAbx 0xFFFF).operand = .source (.mem (.abx 0xFFFF)) ∧ 7 < 8 := by decide

theorem witness_BitResult : (Instr.bitAbs 0xFE00).mnemonic = .bit ∧
    (Instr.bitAbs 0xFE00).operand = .source (.mem (.abs 0xFE00)) := by decide

theorem witness_ReadModifyWriteResult : let names := [Mnemonic.asl, .lsr, .rol, .ror, .inc, .dec]
    let ea := fun w => (address (.abs w) (bench [] [])).ea
    ((Instr.aslAbs 0x7FFF).mnemonic ∈ names ∧ (Instr.aslAbs 0x7FFF).operand = .source (.mem (.abs 0x7FFF)) ∧
      regionOf (ea 0x7FFF) = .ram) ∧
    ((Instr.incAbs 0x8000).mnemonic ∈ names ∧ (Instr.incAbs 0x8000).operand = .source (.mem (.abs 0x8000)) ∧
      regionOf (ea 0x8000) = .pagedRom) ∧
    ((Instr.rorAbs 0xFDFF).mnemonic ∈ names ∧ (Instr.rorAbs 0xFDFF).operand = .source (.mem (.abs 0xFDFF)) ∧
      regionOf (ea 0xFDFF) = .osRom) := by decide

theorem witness_AccumulatorShiftResult : Instr.rorAcc ∈ [Instr.aslAcc, .lsrAcc, .rolAcc, .rorAcc] := by decide

theorem witness_RegisterInstructionResult : registerResult .tsx (bench [] []) = some (.x, 0xFF) ∧
    registerResult .dey (bench [] []) = some (.y, 255) ∧ registerResult .txa (bench [] []) = some (.a, 0) := by decide

theorem witness_FlagInstructionResult : (Instr.clv, Flag.v, false) ∈ [(Instr.clc, Flag.c, false), (.sec, .c, true),
    (.cli, .i, false), (.sei, .i, true), (.cld, .d, false), (.sed, .d, true), (.clv, .v, false)] := by decide

theorem witness_UndefinedOpcodeResult : Instr.undef02.mnemonic = .undefined ∧ Instr.undefFF.mnemonic = .undefined := by decide

theorem witness_StackPrimitives : (0x0200 : Word) ≠ stackAddr (bench [] []).sp := by decide

theorem witness_StackWrapsInPageOne : (List.replicate 256 (0x5A : Byte)).length = 256 ∧
    ¬(0x0100 ≤ (0x00FF : Word).toNat ∧ (0x00FF : Word).toNat ≤ 0x01FF) ∧
    ¬(0x0100 ≤ (0x0200 : Word).toNat ∧ (0x0200 : Word).toNat ≤ 0x01FF) :=
  ⟨List.length_replicate .., by decide, by decide⟩

theorem witness_StackInstructionResult : let s := bench [] []
    (Instr.pha, s.a) ∈ [(Instr.pha, s.a), (.php, s.p ||| 0x30)] ∧ (Instr.php, s.p ||| 0x30) ∈ [(Instr.pha, s.a), (.php, s.p ||| 0x30)] ∧
    (0x01FE : Word) ≠ stackAddr s.sp := by decide

theorem witness_BranchResult : (Instr.bne 0xF8).operand = .relative 0xF8 ∧
    getFlag (bench [] []).p (branchFlag (Instr.bne 0xF8).opcode) = (Instr.bne 0xF8).opcode.getLsbD 5 ∧
    (Instr.beq 0x7F).operand = .relative 0x7F ∧
    getFlag (bench [] []).p (branchFlag (Instr.beq 0x7F).opcode) ≠ (Instr.beq 0x7F).opcode.getLsbD 5 := by decide

theorem witness_JumpResult : QuietRead 0x02FF ∧ QuietRead (BitVec.ofNat 16 (0x02FF / 256 * 256 + (0x02FF % 256 + 1) % 256)) :=
  ⟨quietRead_of (.inl (by decide)), quietRead_of (.inl (by decide))⟩

theorem witness_SubroutineResult : let s := bench [] []
    (0x0200 : Word) ∉ [stackAddr s.sp, stackAddr (s.sp - 1)] := by decide

theorem witness_RtsUndoesJsr : ∃ t, exec (.jsr 0x0210) (bench [] []) = .next t ∧ t.sp = t.sp ∧
    stackByte t (bench [] []).sp = stackByte t (bench [] []).sp := ⟨_, rfl, rfl, rfl⟩

theorem witness_InterruptEntry : let s := { bench [] [] with nmiPending := true }
    let r := { bench [] [] with irqPending := true, p := 0x20, cycleTime := 127 }
    (s.InBurst ∧ s.nmiPending = true) ∧
    (r.InBurst ∧ r.nmiPending = false ∧ r.irqPending = true ∧ getFlag r.p .i = false) :=
  ⟨⟨⟨rfl, rfl, by decide⟩, rfl⟩, ⟨rfl, rfl, by decide⟩, rfl, rfl, by decide⟩

theorem witness_RtiResumesInterrupted : let s := bench [] []
    let t := takeException 0xFFFE (s.pc - 1) false s
    ExceptionEntry 0xFFFE (s.pc - 1) false s t ∧ t.sp = t.sp ∧
    ∀ k : Byte, k ∈ [s.sp, s.sp - 1, s.sp - 2] → stackByte t k = stackByte t k :=
  ⟨takeException_entry _ _ _ _ (by decide) (by decide), rfl, fun _ _ => rfl⟩

theorem witness_AddressBreakpointStops : let s := { bench [] [] with bpKind := .atAddress, bpAddr := 0x0200 }
    let r := { s with irqPending := true }
    (s.InBurst ∧ s.nmiPending = false ∧ s.irqPending = false ∧ s.bpKind = .atAddress ∧ s.bpAddr = s.pc) ∧
    (r.InBurst ∧ r.nmiPending = false ∧ getFlag r.p .i = true ∧ r.bpKind = .atAddress ∧ r.bpAddr = r.pc) :=
  ⟨⟨⟨rfl, rfl, by decide⟩, rfl, rfl, rfl, rfl⟩, ⟨rfl, rfl, by decide⟩, rfl, by decide, rfl, rfl⟩

theorem witness_EnableAndDataWrites : (regionOf 0xFE00 = .peripheral ∧ ulaOffset 0xFE00 = 0) ∧
    (regionOf 0xFEF4 = .peripheral ∧ ulaOffset 0xFEF4 = 4) := by decide

theorem witness_PeripheralReads : (regionOf 0xFEF0 = .peripheral ∧ ulaOffset 0xFEF0 = 0) ∧ (1 ≤ 6 ∧ 6 ≤ 6) ∧
    (regionOf 0xFEFF = .peripheral ∧ (ulaOffset 0xFEFF).val % 2 = 1) ∧
    (regionOf 0xFE02 = .peripheral ∧ (ulaOffset 0xFE02).val % 2 = 0 ∧ ulaOffset 0xFE02 ≠ 0) := by decide

theorem witness_PageWrite : regionOf 0xFE05 = .peripheral ∧ ulaOffset 0xFE05 = 5 ∧ 7 < 8 := by decide

theorem witness_ControlWrite : let old := (bench [] []).sheila[7]
    regionOf 0xFEF7 = .peripheral ∧ ulaOffset 0xFEF7 = 7 ∧ (0x08 : Byte).extractLsb' 3 3 ≠ old.extractLsb' 3 3 ∧
    (0x04 : Byte).extractLsb' 3 3 = old.extractLsb' 3 3 ∧
    (old.extractLsb' 1 2 ≠ 2 ∧ (0x04 : Byte).extractLsb' 1 2 = 2) ∧
    ¬(old.extractLsb' 1 2 ≠ 2 ∧ (0x06 : Byte).extractLsb' 1 2 = 2) := by decide

theorem witness_StoringRegisterWrites : (regionOf 0xFE01 = .peripheral ∧ ulaOffset 0xFE01 ∈ [(1 : Fin 16), 2, 3, 6]) ∧
    (regionOf 0xFE08 = .peripheral ∧ 8 ≤ (ulaOffset 0xFE08).val) ∧
    (regionOf 0xFEFF = .peripheral ∧ 8 ≤ (ulaOffset 0xFEFF).val) := by decide

theorem witness_EndOfScanlineResult : let s := { bench [] [] with cycleTime := 128, scanline := 311, cassetteCounter := 128 }
    let r := { s with scanline := 255, cassetteCounter := 129 }
    let w := { r with sheila := r.sheila.set 7 0x40 }
    (s.driver = .runningFrame ∧ s.bpHit = false ∧ 128 ≤ s.cycleTime ∧ s.cassetteCounter + 1 < 130) ∧
    (r.driver = .runningFrame ∧ r.bpHit = false ∧ 128 ≤ r.cycleTime ∧ r.sheila[7].getLsbD 6 = false) ∧
    (w.driver = .runningFrame ∧ w.bpHit = false ∧ 128 ≤ w.cycleTime ∧ 130 ≤ w.cassetteCounter + 1 ∧
      w.sheila[7].getLsbD 6 = true) := by decide

theorem witness_CassetteActions : let s := fun (v : Byte) (b : Bool) (l : List TapeAnswer) =>
      { bench [] [] with cassetteCounter := 129, sheila := State.reset.sheila.set 7 v, dataShiftHasData := b, tape := l }
    let ready := fun (t : State) (mode : Nat) =>
      130 ≤ t.cassetteCounter + 1 ∧ t.sheila[7].getLsbD 6 = true ∧ t.sheila[7].toNat / 2 % 4 = mode
    (ready (s 0x40 false [.byte 0xFF]) 0 ∧ (s 0x40 false [.byte 0xFF]).tape = [.byte 0xFF]) ∧
    (ready (s 0x40 false [.highTone]) 0 ∧ (s 0x40 false [.highTone]).tape = [.highTone]) ∧
    (ready (s 0x40 false [.silence]) 0 ∧ (s 0x40 false [.silence]).tape = [.silence]) ∧
    (ready (s 0x40 false [.atEnd]) 0 ∧ (s 0x40 false [.atEnd]).tape = [.atEnd]) ∧
    (ready (s 0x40 false []) 0 ∧ (s 0x40 false []).tape = []) ∧
    (130 ≤ (s 0x00 false []).cassetteCounter + 1 ∧ (s 0x00 false []).sheila[7].getLsbD 6 = false) ∧
    ({ s 0x40 false [] with cassetteCounter := 128 } : State).cassetteCounter + 1 < 130 ∧
    (ready (s 0x44 true []) 2 ∧ (s 0x44 true []).dataShiftHasData = true) ∧
    (ready (s 0x44 false []) 2 ∧ (s 0x44 false []).dataShiftHasData = false) ∧
    ready (s 0x42 false []) 1 ∧ ready (s 0x46 false []) 3 := by decide

theorem witness_BurstEnds : (bench [] []).cycleTime < 1 ∧ 0 ≤ (bench [] []).cycleTime ∧
    ({ bench [] [] with bpHit := true } : State).bpHit = true := by decide

theorem witness_StepsRunTheFrame : (bench [] []).driver = .runningFrame := by decide

theorem witness_HostStepResult : let s := fun n => waiting .step { bench [0xEA] [] with cycleTime := n }
    (∀ n, (s n).driver = .idle ∧ (s n).calls = .step :: []) ∧
    (∃ u, iteration { s 0 with calls := [], bpKind := .none } = .next u ∧ u.cycleTime < 128) ∧
    (∃ u, iteration { s 126 with calls := [], bpKind := .none } = .next u ∧ 128 ≤ u.cycleTime) :=
  ⟨fun _ => ⟨rfl, rfl⟩, ⟨_, rfl, by decide⟩, ⟨_, rfl, by decide⟩⟩

theorem witness_HostOperations : let s := fun c => waiting c (bench [] [])
    ((s (.setBreakpoint .onRead 0xFFFF)).driver = .idle ∧
      (s (.setBreakpoint .onRead 0xFFFF)).calls = .setBreakpoint .onRead 0xFFFF :: []) ∧
    ((s (.press 13 3)).calls = (if true then .press 13 3 else .release 13 3) :: []) ∧
    ((s (.release 0 0)).calls = (if false then .press 0 0 else .release 0 0) :: []) ∧
    (s .triggerNmi).calls = .triggerNmi :: [] ∧ (s (.debugRead 0xFE04)).calls = .debugRead 0xFE04 :: [] := by decide

theorem witness_RomLoad : let src := List.replicate 16384 (0xA0 : Byte)
    (∀ c, (waiting c (bench [] [])).driver = .idle ∧ (waiting c (bench [] [])).calls = c :: []) ∧
    src.length = 16384 ∧ 16383 < 16384 ∧ ([] : List Byte).length ≠ 16384 :=
  ⟨fun _ => ⟨rfl, rfl⟩, List.length_replicate .., by decide, by decide⟩

theorem witness_FlagsFrame : ∃ t, exec (.adcImm 0x01) (bench [] []) = .next t := ⟨_, rfl⟩

theorem witness_StateFrame : (∃ t, exec (.staAbs 0xFDFF) (bench [] []) = .next t) ∧
    ∀ a, a ∈ (Instr.staAbs 0xFDFF).dataAddresses (bench [] []) → OutsideUla a := by
  refine ⟨⟨_, rfl⟩, fun a ha => ?_⟩
  have : a = 0xFDFF := by simpa [Instr.dataAddresses, Instr.operand, sourceAddresses, address] using ha
  subst this
  unfold OutsideUla
  decide

theorem witness_MemoryFrame : (∃ t, exec .brk (bench [] []) = .next t) ∧
    (∀ a, a ∈ Instr.brk.dataAddresses (bench [] []) → OutsideUla a) ∧ (0x7FFF : Word).toNat < 0x8000 ∧
    (0x7FFF : Word) ∉ Instr.brk.storedAddresses (bench [] []) :=
  ⟨⟨_, rfl⟩, fun a ha => absurd ha (List.not_mem_nil), by decide, by decide⟩

theorem witness_InstructionCost : ∃ t, exec .nop (bench [] []) = .next t := ⟨_, rfl⟩

end Sys2Proof.Tests
end

section
/-! PROOF. The scope (spec/00_scope.md): no step faults and none is refused. The layers of a step answer a next state one after
the other: an instruction, an iteration, the host's `step()`, a host call, and the two states of the driver. -/

namespace Sys2Proof.Machine

/-- No opcode, defined or undefined, traps or halts (40_execution.md R144, 49_undefined.md R370). -/
theorem exec_goesOn (i : Instr) (s : State) : ∃ t, exec i s = .next t := by
  cases i <;> exact ⟨_, rfl⟩

/-- Both interrupt entries and the breakpoint stop answer at once; what is left is one instruction (40_execution.md R141). -/
theorem iteration_goesOn (s : State) : ∃ t, iteration s = .next t := by
  unfold iteration
  split
  · exact ⟨_, rfl⟩
  · split
    · exact ⟨_, rfl⟩
    · split
      · exact ⟨_, rfl⟩
      · exact exec_goesOn _ _

theorem andThen_goesOn {α β : Type} {o : Host.Outcome α Fault Refusal} {f : α → Host.Outcome β Fault Refusal}
    (ho : ∃ a, o = .next a) (hf : ∀ a, ∃ b, f a = .next b) : ∃ b, andThen o f = .next b := by
  obtain ⟨a, rfl⟩ := ho
  exact hf a

theorem hostStep_goesOn (s : State) : ∃ t, hostStep s = .next t :=
  andThen_goesOn (iteration_goesOn _) fun _ => ⟨_, rfl⟩

/-- Of the host's calls only `step()` runs the processor (60_exceptions.md R481). -/
theorem hostCall_goesOn (c : HostCall) (s : State) : ∃ t, hostCall c s = .next t := by
  cases c with
  | step => exact hostStep_goesOn s
  | _ => exact ⟨_, rfl⟩

theorem idleStep_goesOn (s : State) : ∃ t, idleStep s = .next t := by
  unfold idleStep
  split
  · exact ⟨_, rfl⟩
  · exact hostCall_goesOn _ _

/-- Of a frame's transitions only the burst runs the processor (60_exceptions.md R450). -/
theorem frameStep_goesOn (s : State) : ∃ t, frameStep s = .next t := by
  unfold frameStep
  split
  · exact ⟨_, rfl⟩
  · split
    · exact iteration_goesOn s
    · exact ⟨_, rfl⟩

/-- Settles O7: in both states of the driver its transition answers a next state. -/
theorem everyStepGoesOn : Obligations.EveryStepGoesOn := by
  intro s
  unfold step driverStep
  split
  · exact idleStep_goesOn s
  · exact frameStep_goesOn s

end Sys2Proof.Machine
end

section
/-! PROOF. The frame of an instruction (spec/10_state.md R30, R31; spec/20_memory.md R72, R73). Each of the 256 opcodes runs the
shared operation of its family, said once; what the operation changes is then one case for each family. -/

namespace Sys2Proof.Machine

/-- What an instruction does from `s`, by the shared operation of its family: the state it ends in, the registers and flags it
writes, the addresses it stores to, those of its other accesses, and whether it logs. -/
inductive Operation (s : State) : State → List Field → List Flag → List Word → List Word → Bool → Prop where
  | load (r : Reg) (x : Source) (n : Nat) (hn : 2 ≤ n ∧ n ≤ 6) :
      Operation s (load r x n s) [r.field] [.n, .z] [] (sourceAddresses x s) false
  | logical (f : Byte → Byte → Byte) (x : Source) (n : Nat) (hn : 2 ≤ n ∧ n ≤ 6) :
      Operation s (logical f x n s) [.a] [.n, .z] [] (sourceAddresses x s) false
  | addWithCarry (x : Source) (n : Nat) (hn : 2 ≤ n ∧ n ≤ 6) :
      Operation s (addWithCarry x n s) [.a] [.n, .v, .z, .c] [] (sourceAddresses x s) false
  | subtractWithBorrow (x : Source) (n : Nat) (hn : 2 ≤ n ∧ n ≤ 6) :
      Operation s (subtractWithBorrow x n s) [.a] [.n, .v, .z, .c] [] (sourceAddresses x s) false
  | compare (r : Reg) (x : Source) (n : Nat) (hn : 2 ≤ n ∧ n ≤ 6) :
      Operation s (compare r x n s) [] [.n, .v, .z, .c] [] (sourceAddresses x s) false
  | bitTest (x : Source) (n : Nat) (hn : 2 ≤ n ∧ n ≤ 6) :
      Operation s (bitTest x n s) [] [.n, .v, .z] [] (sourceAddresses x s) false
  | store (r : Reg) (m : AddrMode) (n : Nat) (hn : 2 ≤ n ∧ n ≤ 6) :
      Operation s (store r m n s) [] [] [(address m s).ea] (sourceAddresses (.mem m) s) false
  | shiftMemory (f : Byte → Byte → Byte × Byte) (m : AddrMode) (n : Nat) (hn : 2 ≤ n ∧ n ≤ 7)
      (hf : ∀ v p, ∃ b, (f v p).2 = putFlag p .c b) :
      Operation s (readModifyWrite f m n s) [] [.n, .z, .c] [(address m s).ea] (sourceAddresses (.mem m) s) false
  | stepMemory (f : Byte → Byte → Byte × Byte) (m : AddrMode) (n : Nat) (hn : 2 ≤ n ∧ n ≤ 7)
      (hf : ∀ v p, (f v p).2 = p) :
      Operation s (readModifyWrite f m n s) [] [.n, .z] [(address m s).ea] (sourceAddresses (.mem m) s) false
  | shiftAccumulator (f : Byte → Byte → Byte × Byte) (hf : ∀ v p, ∃ b, (f v p).2 = putFlag p .c b) :
      Operation s (modifyAccumulator f 2 s) [.a] [.n, .z, .c] [] [] false
  | setRegister (r : Reg) (v : Byte) : Operation s (charge 2 (setRegNZ r v s)) [r.field] [.n, .z] [] [] false
  | setStackPointer (v : Byte) : Operation s (charge 2 (s.setSp v)) [.sp] [] [] [] false
  | setFlag (f : Flag) (b : Bool) : Operation s (charge 2 (s.setP (putFlag s.p f b))) [] [f] [] [] false
  | noOperation : Operation s (charge 2 s) [] [] [] [] false
  | undefinedOpcode : Operation s (undefinedOpcode s) [] [] [] [] true
  | branch (f : Flag) (b : Bool) (d : Byte) : Operation s (branch f b d s) [] [] [] [] false
  | jump (w : Word) : Operation s (charge 3 (s.setPc w)) [] [] [] [] false
  | jumpIndirect (w : Word) :
      Operation s (jumpIndirect w 5 s) [] [] [] [w, pointerHigh jmpIndirectPageWrap w] false
  | jumpSubroutine (w : Word) :
      Operation s (jumpSubroutine w 6 s) [.sp] [] [stackAddr s.sp, stackAddr (s.sp - 1)] [] false
  | returnSubroutine : Operation s (returnSubroutine 6 s) [.sp] [] [] [] false
  | softwareInterrupt :
      Operation s (softwareInterrupt brkPushOffset s) [.sp] [.b, .i]
        [stackAddr s.sp, stackAddr (s.sp - 1), stackAddr (s.sp - 2)] [] false
  | returnFromInterrupt :
      Operation s (charge 6 (returnFromInterrupt s)) [.sp] [.n, .v, .u, .b, .d, .i, .z, .c] [] [] false
  | push (v : Byte) : Operation s (charge 3 (push v s)) [.sp] [] [stackAddr s.sp] [] false
  | pullAccumulator :
      Operation s (charge 4 (setRegNZ .a (pull s).1 (pull s).2)) [.a, .sp] [.n, .z] [] [] false
  | pullStatus :
      Operation s (charge 4 ((pull s).2.setP (pull s).1)) [.sp] [.n, .v, .u, .b, .d, .i, .z, .c] [] [] false

section Effects

variable {regs : List Field} {fl : List Flag} {stored data : List Word} {log : Bool} {i : Instr} {s t : State}

/-- Each opcode of R114 by its family, under the lists of its own row; what is left is undefined (49_undefined.md R370). -/
theorem operation_of_exec (h : exec i s = .next t) :
    Operation s t i.registersWritten i.mnemonic.flagsWritten (i.storedAddresses s) (i.dataAddresses s)
      (decide (i.mnemonic = .undefined)) := by
  cases i with cases h
  | ldaImm _ | ldaZp _ | ldaZpx _ | ldaAbs _ | ldaAbx _ | ldaAby _ | ldaIzx _ | ldaIzy _ =>
    exact .load .a _ _ (by decide)
  | ldxImm _ | ldxZp _ | ldxZpy _ | ldxAbs _ | ldxAby _ => exact .load .x _ _ (by decide)
  | ldyImm _ | ldyZp _ | ldyZpx _ | ldyAbs _ | ldyAbx _ => exact .load .y _ _ (by decide)
  | andImm _ | andZp _ | andZpx _ | andAbs _ | andAbx _ | andAby _ | andIzx _ | andIzy _
  | oraImm _ | oraZp _ | oraZpx _ | oraAbs _ | oraAbx _ | oraAby _ | oraIzx _ | oraIzy _
  | eorImm _ | eorZp _ | eorZpx _ | eorAbs _ | eorAbx _ | eorAby _ | eorIzx _ | eorIzy _ =>
    exact .logical _ _ _ (by decide)
  | adcImm _ | adcZp _ | adcZpx _ | adcAbs _ | adcAbx _ | adcAby _ | adcIzx _ | adcIzy _ =>
    exact .addWithCarry _ _ (by decide)
  | sbcImm _ | sbcZp _ | sbcZpx _ | sbcAbs _ | sbcAbx _ | sbcAby _ | sbcIzx _ | sbcIzy _ =>
    exact .subtractWithBorrow _ _ (by decide)
  | cmpImm _ | cmpZp _ | cmpZpx _ | cmpAbs _ | cmpAbx _ | cmpAby _ | cmpIzx _ | cmpIzy _
  | cpxImm _ | cpxZp _ | cpxAbs _ | cpyImm _ | cpyZp _ | cpyAbs _ => exact .compare _ _ _ (by decide)
  | bitZp _ | bitAbs _ => exact .bitTest _ _ (by decide)
  | staZp _ | staZpx _ | staAbs _ | staAbx _ | staAby _ | staIzx _ | staIzy _
  | stxZp _ | stxZpy _ | stxAbs _ | styZp _ | styZpx _ | styAbs _ => exact .store _ _ _ (by decide)
  | aslZp _ | aslZpx _ | aslAbs _ | aslAbx _ | lsrZp _ | lsrZpx _ | lsrAbs _ | lsrAbx _
  | rolZp _ | rolZpx _ | rolAbs _ | rolAbx _ | rorZp _ | rorZpx _ | rorAbs _ | rorAbx _ =>
    exact .shiftMemory _ _ _ (by decide) fun _ _ => ⟨_, rfl⟩
  | incZp _ | incZpx _ | incAbs _ | incAbx _ | decZp _ | decZpx _ | decAbs _ | decAbx _ =>
    exact .stepMemory _ _ _ (by decide) fun _ _ => rfl
  | aslAcc | lsrAcc | rolAcc | rorAcc => exact .shiftAccumulator _ fun _ _ => ⟨_, rfl⟩
  | tax | tsx | inx | dex => exact .setRegister .x _
  | tay | iny | dey => exact .setRegister .y _
  | txa | tya => exact .setRegister .a _
  | txs => exact .setStackPointer _
  | clc | sec | cli | sei | cld | sed | clv => exact .setFlag _ _
  | nop => exact .noOperation
  | bpl d | bmi d | bvc d | bvs d | bcc d | bcs d | bne d | beq d => exact .branch _ _ d
  | jmpAbs w => exact .jump w
  | jmpInd w => exact .jumpIndirect w
  | jsr w => exact .jumpSubroutine w
  | rts => exact .returnSubroutine
  | brk => exact .softwareInterrupt
  | rti => exact .returnFromInterrupt
  | pha | php => exact .push _
  | pla => exact .pullAccumulator
  | plp => exact .pullStatus
  | _ => exact .undefinedOpcode

/-- An operation has the effect of its lists. -/
theorem Operation.effect (h : Operation s t regs fl stored data log) : Effect regs fl stored data log s t := by
  cases h with
  | load r x n hn => exact load_effect r x n s hn
  | logical f x n hn => exact logical_effect f x n s hn
  | addWithCarry x n hn => exact addWithCarry_effect x n s hn
  | subtractWithBorrow x n hn => exact subtractWithBorrow_effect x n s hn
  | compare r x n hn => exact compare_effect r x n s hn
  | bitTest x n hn => exact bitTest_effect x n s hn
  | store r m n hn => exact store_effect r m n s hn
  | shiftMemory f m n hn hf => exact readModifyWrite_effect f _ m n s hn (shift_flags hf)
  | stepMemory f m n hn hf => exact readModifyWrite_effect f _ m n s hn (step_flags hf)
  | shiftAccumulator f hf => exact modifyAccumulator_effect f _ 2 s (by decide) (shift_flags hf)
  | setRegister r v => exact setRegNZ_effect r v 2 s (by decide)
  | setStackPointer v => exact setSp_effect v 2 s (by decide)
  | setFlag f b => exact setP_effect _ 2 s (by decide) (putFlag_flags _ _ _)
  | noOperation => exact charge_effect 2 s (by decide)
  | undefinedOpcode => exact undefinedOpcode_effect s
  | branch f b d => exact branch_effect f b d s
  | jump w => exact setPc_effect w 3 s (by decide)
  | jumpIndirect w => exact jumpIndirect_effect w 5 s (by decide)
  | jumpSubroutine w => exact jumpSubroutine_effect w 6 s (by decide)
  | returnSubroutine => exact returnSubroutine_effect 6 s (by decide)
  | softwareInterrupt => exact softwareInterrupt_effect _ s
  | returnFromInterrupt => exact returnFromInterrupt_effect 6 s (by decide)
  | push v => exact push_effect v 3 s (by decide)
  | pullAccumulator => exact pla_effect s
  | pullStatus => exact plp_effect s

/-- What every instruction may change, by the lists of its row: the frame statements are its fields. -/
theorem exec_effect (h : exec i s = .next t) :
    Effect i.registersWritten i.mnemonic.flagsWritten (i.storedAddresses s) (i.dataAddresses s)
      (decide (i.mnemonic = .undefined)) s t :=
  (operation_of_exec h).effect

end Effects

/-- Settles O58: both clauses are those of the effect that the instruction's operation has. -/
theorem stateFrame : Obligations.StateFrame := by
  intro i s t h
  have he := exec_effect h
  refine ⟨he.fields, fun hd => ?_⟩
  simpa only [decide_eq_true_eq] using he.quiet hd

end Sys2Proof.Machine
end

section
/-! PROOF. The invariant (spec/10_state.md R52, R54, R55). Its clauses but the time are kept by everything a step is made of: the
operation of an instruction, an iteration, the end of a scanline, a host call. The time is bounded by where the loop stops. -/

namespace Sys2Proof.Machine

/-- The invariant but for the overrun bound: what holds within the host's `step()` too, before it takes the scanlines off. -/
structure Untimed (s : State) : Prop where
  kept : Kept s
  scanline : s.scanline < 312
  cassette : s.cassetteCounter < 130

theorem inv_iff (s : State) : s.Inv ↔ Untimed s ∧ s.cycleTime ≤ 134 := by
  constructor
  · intro h
    exact ⟨⟨⟨h.memory, h.status, h.irqLevel, h.mask, h.bank, h.keys⟩, h.scanline, h.cassette⟩, h.time⟩
  · rintro ⟨⟨hk, hl, hc⟩, ht⟩
    exact ⟨hk.memory, hk.status, hk.irqLevel, hk.mask, hl, hc, ht, hk.bank, hk.keys⟩

/-- What keeps the clauses an access could break, and leaves the two counters, keeps the rest. -/
theorem Untimed.of_kept {fs : List Field} {s t : State} (h : Untimed s) (hk : Kept t) (hu : UnchangedBut fs s t)
    (hf : ∀ f, f ∈ [Field.scanline, .cassetteCounter] → f ∉ fs) : Untimed t := by
  have hl : t.scanline = s.scanline := hu .scanline (hf _ (by decide))
  have hc : t.cassetteCounter = s.cassetteCounter := hu .cassetteCounter (hf _ (by decide))
  exact ⟨hk, hl ▸ h.scanline, hc ▸ h.cassette⟩

/-! ## Bookkeeping: updates of fields that the invariant is not about -/

theorem Untimed.setNmi {s : State} (b : Bool) (h : Untimed s) : Untimed (s.setNmi b) :=
  ⟨{ h.kept with }, h.scanline, h.cassette⟩

theorem Untimed.setBpHit {s : State} (b : Bool) (h : Untimed s) : Untimed (s.setBpHit b) :=
  ⟨{ h.kept with }, h.scanline, h.cassette⟩

theorem Untimed.setBreakpoint {s : State} (k : BreakpointKind) (a : Word) (h : Untimed s) : Untimed (s.setBreakpoint k a) :=
  ⟨{ h.kept with }, h.scanline, h.cassette⟩

theorem State.Inv.setNmi {s : State} (b : Bool) (h : s.Inv) : (s.setNmi b).Inv := { h with }

theorem State.Inv.setBreakpoint {s : State} (k : BreakpointKind) (a : Word) (h : s.Inv) : (s.setBreakpoint k a).Inv :=
  { h with }

theorem State.Inv.setBpHit {s : State} (b : Bool) (h : s.Inv) : (s.setBpHit b).Inv := { h with }

theorem State.Inv.setDriver {s : State} (d : DriverState) (h : s.Inv) : (s.setDriver d).Inv := { h with }

theorem State.Inv.setCalls {s : State} (c : List HostCall) (h : s.Inv) : (s.setCalls c).Inv := { h with }

theorem State.Inv.emit {s : State} (e : List OutputEvent) (h : s.Inv) : (s.emit e).Inv := { h with }

/-! ## An instruction -/

/-- Every family's operation is made of accesses and register updates, which keep the clauses an access could break. -/
theorem Operation.kept {s t : State} {regs : List Field} {fl : List Flag} {stored data : List Word} {log : Bool}
    (h : Operation s t regs fl stored data log) (hk : Kept s) : Kept t := by
  cases h with
  | load r x n => exact ((hk.readOperand x).setRegNZ r _).charge _
  | logical f x n => exact ((hk.readOperand x).setRegNZ .a _).charge _
  | addWithCarry x n => exact (((hk.readOperand x).setA _).setP _).charge _
  | subtractWithBorrow x n => exact (((hk.readOperand x).setA _).setP _).charge _
  | compare r x n => exact ((hk.readOperand x).setP _).charge _
  | bitTest x n => exact ((hk.readOperand x).setP _).charge _
  | store r m n => exact ((hk.address m).write _ _).charge _
  | shiftMemory f m n => exact (((((hk.address m).read _).setP _).write _ _).setP _).charge _
  | stepMemory f m n => exact (((((hk.address m).read _).setP _).write _ _).setP _).charge _
  | shiftAccumulator f => exact ((hk.setP _).setRegNZ .a _).charge _
  | setRegister r v => exact (hk.setRegNZ r v).charge _
  | setStackPointer v => exact (hk.setSp v).charge _
  | setFlag f b => exact (hk.setP _).charge _
  | noOperation => exact hk.charge _
  | undefinedOpcode => exact (hk.emit _).charge _
  | branch f b d =>
    unfold Machine.branch
    split
    · exact (hk.setPc _).charge _
    · exact hk.charge _
  | jump w => exact (hk.setPc w).charge _
  | jumpIndirect w => exact ((hk.readPair _ _).setPc _).charge _
  | jumpSubroutine w => exact ((hk.pushWord _).setPc w).charge _
  | returnSubroutine => exact (hk.pullWord.setPc _).charge _
  | softwareInterrupt => exact hk.takeException _ _ _
  | returnFromInterrupt => exact hk.returnFromInterrupt.charge _
  | push v => exact (hk.push v).charge _
  | pullAccumulator => exact (hk.pull.setRegNZ .a _).charge _
  | pullStatus => exact (hk.pull.setP _).charge _

/-- What R30 and R31 call registers: an instruction's list names nothing else. -/
theorem Operation.registers {s t : State} {regs : List Field} {fl : List Flag} {stored data : List Word} {log : Bool}
    (h : Operation s t regs fl stored data log) : ∀ f, f ∈ regs → f ∈ [Field.a, .x, .y, .sp] := by
  cases h with
  | load r => cases r <;> decide
  | setRegister r => cases r <;> decide
  | _ => decide

/-- An instruction moves neither counter, costs at most 7 cycles, and keeps the rest. -/
theorem exec_untimed {i : Instr} {s t : State} (h : exec i s = .next t) (hs : Untimed s) :
    Untimed t ∧ t.cycleTime ≤ s.cycleTime + 7 := by
  have ho := operation_of_exec h
  have hregs : ∀ f, f ∉ [Field.a, .x, .y, .sp] → f ∉ i.registersWritten := fun f hf hm => hf (ho.registers f hm)
  refine ⟨hs.of_kept (ho.kept hs.kept) ho.effect.fields fun f hf => ?_, ho.effect.cost.2⟩
  simp only [List.mem_cons, List.not_mem_nil, or_false] at hf
  rcases hf with rfl | rfl <;> simp [hregs]

/-! ## An iteration -/

/-- An instruction's fetch is one to three fetches of a byte, the first of them recorded (40_execution.md R145): what these
keep, it keeps. -/
theorem fetchInstr_induction {P : State → Prop} (hf : ∀ s, P s → P (fetchByte s).2)
    (hc : ∀ s v, P s → P (s.setCurrent v)) {s : State} (h : P s) : P (fetchInstr s).2 := by
  have h1 := hc _ (fetchByte s).1 (hf s h)
  unfold fetchInstr
  dsimp only
  split
  · exact h1
  · exact hf _ h1
  · exact hf _ (hf _ h1)

theorem fetchInstr_untimed {s : State} (h : Untimed s) :
    Untimed (fetchInstr s).2 ∧ (fetchInstr s).2.cycleTime = s.cycleTime := by
  refine fetchInstr_induction (P := fun u => Untimed u ∧ u.cycleTime = s.cycleTime) ?_ ?_ ⟨h, rfl⟩
  · rintro u ⟨hu, ht⟩
    have hb := fetchByte_unchanged u
    exact ⟨hu.of_kept hu.kept.fetchByte hb (by decide), (hb .cycleTime (by decide)).trans ht⟩
  · rintro u v ⟨⟨hk, hl, hc⟩, ht⟩
    exact ⟨⟨⟨hk.memory, hk.status, hk.irqLevel, hk.mask, hk.bank, hk.keys⟩, hl, hc⟩, ht⟩

/-- The vectors of NMI and IRQ are in ROM (60_exceptions.md R411), so the entry's reads have no side effect. -/
theorem enterInterrupt_untimed {s : State} {vec : Word} (h0 : regionOf vec = .osRom) (h1 : regionOf (vec + 1) = .osRom)
    (h : Untimed s) : Untimed (enterInterrupt vec s) ∧ (enterInterrupt vec s).cycleTime = s.cycleTime + 7 := by
  have he := takeException_entry vec (s.pc - 1) false s h0 h1
  exact ⟨h.of_kept (h.kept.takeException _ _ _) he.otherFields (by decide), he.time⟩

/-- One iteration adds at most 7 cycles, whichever of its four ways it goes (70_reset_and_hazards.md R522). -/
theorem iteration_untimed {s t : State} (h : iteration s = .next t) (hs : Untimed s) :
    Untimed t ∧ t.cycleTime ≤ s.cycleTime + 7 := by
  unfold iteration at h
  split at h
  case isTrue nmi =>
    cases h
    obtain ⟨hu, ht⟩ := enterInterrupt_untimed (vec := vectorNmi) (by decide) (by decide) hs
    exact ⟨hu.setNmi false, Nat.le_of_eq ht⟩
  split at h
  case isTrue irq =>
    cases h
    obtain ⟨hu, ht⟩ := enterInterrupt_untimed (vec := vectorIrq) (by decide) (by decide) hs
    exact ⟨hu, Nat.le_of_eq ht⟩
  split at h
  case isTrue stop =>
    cases h
    exact ⟨hs.setBpHit true, Nat.le_add_right _ _⟩
  obtain ⟨hf, ht⟩ := fetchInstr_untimed hs
  exact ht ▸ exec_untimed h hf

/-! ## The end of a scanline -/

theorem Kept.raiseAt {s : State} (line k : Nat) (h : Kept s) (hk : 1 ≤ k ∧ k ≤ 6) : Kept (raiseAt line k s) := by
  unfold Machine.raiseAt
  split
  · exact h.raise k hk
  · exact h

theorem Kept.cassetteRead {s : State} (h : Kept s) : Kept (cassetteRead s) := by
  unfold Machine.cassetteRead
  split
  case h_1 => exact h.tapeEnded _
  case h_2 => exact h.tapeEnded _
  case h_3 => exact ((h.tapeAnswered _).setSheila 4 _ (by decide)).raise 4 (by decide)
  case h_4 => exact (h.tapeAnswered _).raise 6 (by decide)
  case h_5 => exact h.tapeAnswered _

theorem Kept.cassetteWrite {s : State} (h : Kept s) : Kept (cassetteWrite s) := by
  unfold Machine.cassetteWrite
  split
  · exact ((h.emit _).setHasData false).raise 5 (by decide)
  · exact h.emit _

/-- The tick touches `sheila` at offset 4 alone and the conditions through `Raise` (60_exceptions.md R460 to R462). -/
theorem Kept.cassetteTick {s : State} (h : Kept s) : Kept (cassetteTick s) := by
  have hc : ∀ n, Kept (s.setCassetteCounter n) := fun n => h.of_unchanged (setCassetteCounter_unchanged s n) (by decide)
  rw [cassetteTick_eq]
  split
  · exact hc _
  · split
    · exact hc 0
    · split
      · exact (hc 0).cassetteRead
      · split
        · exact (hc 0).cassetteWrite
        · exact hc 0

theorem Kept.endOfScanline {s : State} (h : Kept s) : Kept (endOfScanline s) := by
  have hn := h.of_unchanged (nextScanline_unchanged s) (by decide)
  have hl := hn.of_unchanged (latchStart_unchanged _) (by decide)
  have hd := hl.of_unchanged (drawLine_unchanged _) (by decide)
  exact ((hd.raiseAt rtcScanline 3 (by decide)).raiseAt displayEndScanline 2 (by decide)).cassetteTick

theorem endOfScanline_cassette (s : State) : (endOfScanline s).cassetteCounter < 130 := cassetteTick_counter _

/-- The end of a scanline puts both counters in their range. -/
theorem endOfScanline_untimed {s : State} (h : Untimed s) : Untimed (endOfScanline s) :=
  ⟨h.kept.endOfScanline, endOfScanline_scanline s ▸ Nat.mod_lt _ (by decide), endOfScanline_cassette s⟩

theorem endScanlines_untimed (n : Nat) {s : State} (h : Untimed s) :
    Untimed (endScanlines n s) ∧ (endScanlines n s).cycleTime = s.cycleTime - 128 * n := by
  induction n generalizing s with
  | zero => exact ⟨h, rfl⟩
  | succ n ih =>
    obtain ⟨hu, ht⟩ := ih (endOfScanline_untimed h)
    refine ⟨hu, ?_⟩
    rw [endScanlines, ht, endOfScanline_cycleTime]
    omega

/-! ## The host's calls -/

/-- What goes on from an answer was an answer first. -/
theorem of_andThen {α β : Type} {o : Host.Outcome α Fault Refusal} {f : α → Host.Outcome β Fault Refusal} {b : β}
    (h : andThen o f = .next b) : ∃ a, o = .next a ∧ f a = .next b := by
  cases o with
  | next a => exact ⟨a, rfl, h⟩
  | fault r => cases h
  | refused r => cases h

/-- The host's `step()` may pass 134 cycles in its iteration; taking the whole scanlines off leaves less than one
(60_exceptions.md R481). -/
theorem hostStep_inv {s t : State} (h : hostStep s = .next t) (hs : s.Inv) : t.Inv := by
  obtain ⟨u, hu, ht⟩ := of_andThen h
  cases ht
  have hstart := ((inv_iff s).1 hs).1.setBreakpoint .none s.bpAddr
  obtain ⟨hn, hc⟩ := endScanlines_untimed (u.cycleTime / scanlineCycles)
    ((iteration_untimed hu hstart).1.setBreakpoint s.bpKind u.bpAddr)
  refine (inv_iff _).2 ⟨hn, ?_⟩
  rw [hc, State.setBreakpoint_cycleTime, scanlineCycles]
  omega

/-- `UpdateIRQ()` puts the ULA's level back whatever was written to the IRQ line (60_exceptions.md R422). -/
theorem Kept.updateIrq_setIrq {s : State} (b n : Bool) (h : Kept s) : Kept (updateIrq ((s.setIrq b).setNmi n)) :=
  { h with irqLevel := rfl }

theorem Kept.setBpHit {s : State} (b : Bool) (h : Kept s) : Kept (s.setBpHit b) := { h with }

/-- A restart clears the time and the IRQ line; the line's level is then taken from the ULA again
(70_reset_and_hazards.md R501, R502). -/
theorem machineRestart_inv {s : State} (hs : s.Inv) : (machineRestart s).Inv := by
  have hstart : Kept ((((((s.setA 0).setX 0).setY 0).setP 0x24).setSp 0xFF).setCycleTime 0) :=
    { ((inv_iff s).1 hs).1.kept with }
  refine (inv_iff _).2 ⟨⟨?_, ?_, ?_⟩, ?_⟩
  · exact (((hstart.readPair _ _).setPc _).setBpHit false).updateIrq_setIrq false false
  · simpa [machineRestart, cpuRestart] using hs.scanline
  · simpa [machineRestart, cpuRestart] using hs.cassette
  · simp [machineRestart, cpuRestart]

/-- A key's bit is one of bits 0 to 3 (60_exceptions.md R483). -/
theorem putBit_key (v : Byte) (k : Fin 4) (b : Bool) (h : v &&& 0xF0 = 0) : putBit v k.val b &&& 0xF0 = 0 := by
  revert h
  revert v k b
  decide

theorem putKey_inv {s : State} (row : Fin 14) (col : Fin 4) (b : Bool) (hs : s.Inv) : (putKey row col b s).Inv := by
  refine { hs with keys := fun r => ?_ }
  simp only [putKey, State.setKeyboard_keyboard, Fin.getElem_fin, Vector.getElem_set]
  split
  · exact putBit_key _ _ _ (hs.keys row)
  · exact hs.keys r

/-- No page selects the physical bank 11 (20_memory.md R78). -/
theorem physicalBank_ne (page : BitVec 4) : (physicalBank page).val ≠ 11 := by
  revert page
  decide

theorem setPagedRoms_inv {s : State} (page : BitVec 4) {r : Option RomImage} (hr : romWf r = true) (hs : s.Inv) :
    (s.setPagedRoms (s.pagedRoms.set (physicalBank page) r)).Inv := by
  refine { hs with memory := setPagedRoms_memoryWf s _ r hr hs.memory, bank := ?_ }
  simpa [Vector.getElem_set, physicalBank_ne] using hs.bank

theorem setOsRom_inv {s : State} {r : Option RomImage} (hr : romWf r = true) (hs : s.Inv) : (s.setOsRom r).Inv :=
  { hs with memory := setOsRom_memoryWf s r hr hs.memory }

theorem readEffect_inv {s : State} (a : Word) (hs : s.Inv) : (readEffect a s).Inv := by
  obtain ⟨⟨hk, hl, hc⟩, ht⟩ := (inv_iff s).1 hs
  refine (inv_iff _).2 ⟨⟨hk.readEffect a, ?_, ?_⟩, ?_⟩
  · rwa [readEffect_scanline]
  · rwa [readEffect_cassetteCounter]
  · rwa [readEffect_cycleTime]

theorem hostCall_inv {c : HostCall} {s t : State} (h : hostCall c s = .next t) (hs : s.Inv) : t.Inv := by
  cases c with
  | step => exact hostStep_inv h hs
  | runFrame => cases h; exact hs.setDriver .runningFrame
  | restart => cases h; exact machineRestart_inv hs
  | setBreakpoint kind addr => cases h; exact (hs.setBreakpoint kind addr).setBpHit false
  | press row col => cases h; exact putKey_inv row col true hs
  | release row col => cases h; exact putKey_inv row col false hs
  | loadOsRom source => cases h; exact (setOsRom_inv (loadedRom_wf source) hs).emit _
  | clearOsRom => cases h; exact (setOsRom_inv rfl hs).emit _
  | loadBank bank source => cases h; exact (setPagedRoms_inv bank (loadedRom_wf source) hs).emit _
  | clearBank bank => cases h; exact (setPagedRoms_inv bank rfl hs).emit _
  | triggerNmi => cases h; exact hs.setNmi true
  | debugRead addr => cases h; exact (readEffect_inv addr hs).emit _

/-! ## The driver -/

theorem endOfScanline_inv {s : State} (hs : s.Inv) : (endOfScanline s).Inv := by
  obtain ⟨hu, ht⟩ := (inv_iff s).1 hs
  refine (inv_iff _).2 ⟨endOfScanline_untimed hu, ?_⟩
  rw [endOfScanline_cycleTime]
  omega

theorem idleStep_inv {s t : State} (h : idleStep s = .next t) (hs : s.Inv) : t.Inv := by
  unfold idleStep at h
  split at h
  case h_1 => cases h; exact hs.setDriver .runningFrame
  case h_2 rest _ => exact hostCall_inv h (hs.setCalls rest)

/-- An iteration of the burst starts below 128 cycles, so it ends at 134 at most (70_reset_and_hazards.md R522). -/
theorem frameStep_inv {s t : State} (h : frameStep s = .next t) (hs : s.Inv) : t.Inv := by
  unfold frameStep at h
  split at h
  case isTrue hit => cases h; exact ((hs.setBpHit false).setDriver .idle).emit _
  split at h
  case isTrue budget =>
    obtain ⟨hu, ht⟩ := iteration_untimed h ((inv_iff s).1 hs).1
    rw [scanlineCycles] at budget
    exact (inv_iff t).2 ⟨hu, by omega⟩
  cases h
  split
  · exact ((endOfScanline_inv hs).setDriver .idle).emit _
  · exact endOfScanline_inv hs

/-- Settles O8: both states of the driver keep the invariant in their transition. -/
theorem stepKeepsInvariant : Obligations.StepKeepsInvariant := by
  intro s t hs h
  unfold step driverStep at h
  split at h
  · exact idleStep_inv h hs
  · exact frameStep_inv h hs

end Sys2Proof.Machine
end

section
/-! PROOF. Memory (spec/20_memory.md): what each region reads as, the side effects of a read, the read after a write, and the
bytes an instruction leaves alone. -/

namespace Sys2Proof.Machine

/-! ## What a region reads as -/

theorem peek_ram {a : Word} (h : a.toNat < 0x8000) (s : State) : peek s a = ramByte s a.toNat := by
  simp [peek, regionOf_ram.2 h]

theorem peek_osRom {a : Word} (h : (0xC000 ≤ a.toNat ∧ a.toNat < 0xFE00) ∨ 0xFF00 ≤ a.toNat) (s : State) :
    peek s a = romByte s.osRom (a.toNat - 0xC000) := by
  simp [peek, regionOf_osRom.2 h, osRomByte]

/-- The paged window reads as the selected bank, but on the keyboard page (20_memory.md R78). -/
theorem peek_pagedRom {a : Word} (h : 0x8000 ≤ a.toNat ∧ a.toNat < 0xC000) {s : State} (hs : s.page ≠ keyboardPage) :
    peek s a = romByte s.pagedRoms[physicalBank s.page] (a.toNat - 0x8000) := by
  simp [peek, regionOf_pagedRom.2 h, pagedRead, hs]

theorem peek_keyboard {a : Word} (h : 0x8000 ≤ a.toNat ∧ a.toNat < 0xC000) {s : State} (hs : s.page = keyboardPage) :
    peek s a = keyboardRead s.keyboard a := by
  simp [peek, regionOf_pagedRom.2 h, pagedRead, hs]

/-- A bit of the OR of the selected rows is set where it is at the start or in a row of the list that is not left out. -/
theorem getLsbD_foldl_or (skip : Nat → Bool) (row : Nat → Byte) (k : Nat) (l : List Nat) (v : Byte) :
    (l.foldl (fun v r => if skip r then v else v ||| row r) v).getLsbD k = true ↔
      v.getLsbD k = true ∨ ∃ r ∈ l, skip r = false ∧ (row r).getLsbD k = true := by
  induction l generalizing v with
  | nil => simp
  | cons r l ih =>
    rw [List.foldl_cons, ih]
    cases hr : skip r <;> simp [hr, or_assoc]

/-- A key bit reads 1 where a row whose address bit is 0 holds it (R79). -/
theorem keyboardRead_getLsbD (keys : Vector Byte 14) (a : Word) (k : Nat) :
    (keyboardRead keys a).getLsbD k = true ↔ ∃ r : Fin 14, a.getLsbD r = false ∧ keys[r].getLsbD k = true := by
  have hrow : ∀ r : Fin 14, keys.getD r 0 = keys[r] := fun r => by simp [Vector.getD]
  have hzero : (0 : Byte).getLsbD k = false := BitVec.getLsbD_zero
  rw [keyboardRead, getLsbD_foldl_or, hzero]
  constructor
  · rintro (h | ⟨r, hr, ha, hk⟩)
    · cases h
    · exact ⟨⟨r, List.mem_range.1 hr⟩, ha, hrow ⟨r, _⟩ ▸ hk⟩
  · rintro ⟨r, ha, hk⟩
    exact .inr ⟨r, List.mem_range.2 r.isLt, ha, (hrow r).symm ▸ hk⟩

/-- Settles O16: one clause for each region outside the peripheral window, the paged window by its page. -/
theorem regionReads : Obligations.RegionReads := by
  intro a s
  refine ⟨fun h => peek_ram h s, fun h => peek_osRom h s, fun hl hh hp => peek_pagedRom ⟨hl, hh⟩ hp, ?_⟩
  intro hl hh hp k _
  rw [peek_keyboard ⟨hl, hh⟩ hp]
  exact keyboardRead_getLsbD s.keyboard a k

/-! ## The side effects of a read -/

/-- A read of offset 0 clears the power-on bit and leaves the IRQ level (60_exceptions.md R428). -/
theorem readEffect_status {a : Word} (h : regionOf a = .peripheral) (ho : ulaOffset a = 0) (s : State) :
    readEffect a s = s.setIntStatus (s.intStatus &&& 0xFD) := by
  have hmask : ~~~BitVec.twoPow 8 1 = (0xFD : Byte) := by decide
  simp [readEffect, h, ulaReadEffect, ho, putStatus, putBit, hmask]

/-- A read of offset 4 clears the receive bit and re-evaluates the IRQ level (R429). -/
theorem readEffect_data {a : Word} (h : regionOf a = .peripheral) (ho : ulaOffset a = 4) (s : State) :
    readEffect a s = (s.setIntStatus (s.intStatus &&& 0xEF)).setIrq
      (s.intStatus &&& 0xEF &&& s.enableMask &&& 0x7C != 0) := by
  have hmask : ~~~BitVec.twoPow 8 4 = (0xEF : Byte) := by decide
  simp [readEffect, h, ulaReadEffect, ho, putStatus, putBit, hmask, updateIrq, pendingEnabled]

theorem setBpHit_unchanged (s : State) (b : Bool) : UnchangedBut [.bpHit] s (s.setBpHit b) := by
  intro f hf
  cases f <;> simp [Same] at hf ⊢

theorem setRam_unchanged (s : State) (m : List Host.Cell) : UnchangedBut [.ram] s (s.setRam m) := by
  intro f hf
  cases f <;> simp [Same] at hf ⊢

theorem readEffect_unchanged (a : Word) (s : State) : UnchangedBut [.intStatus, .irqPending] s (readEffect a s) := by
  intro f hf
  cases f <;> simp [Same] at hf ⊢

/-- Settles O14: a checked read is the side effect of its address and then the breakpoint check. -/
theorem readSideEffects : Obligations.ReadSideEffects := by
  intro a s
  rw [read_eq]
  refine ⟨rfl, ?_, rfl, fun hq => ?_, fun h ho => ?_, fun h ho => ?_⟩
  · exact ((readEffect_unchanged a s).trans (setBpHit_unchanged _ _)).mono (by decide)
  · rw [readEffect_of_quiet hq]
    exact setBpHit_unchanged s _
  · rw [readEffect_status h ho]
    exact ⟨rfl, rfl⟩
  · rw [readEffect_data h ho]
    exact ⟨rfl, rfl⟩

/-! ## The read after a write -/

/-- Settles O15: in RAM by the law of a byte stored, in a ROM region because nothing is written. -/
theorem writeThenRead : Obligations.WriteThenRead := by
  intro a v s
  refine ⟨fun h => ?_, fun h => machineWrite_rom ?_ v s, ?_, ?_⟩
  · have hr := regionOf_ram.2 h
    rw [machineWrite_ram hr]
    refine ⟨?_, fun b hb => ?_, setRam_unchanged s _⟩
    · rw [peek_setRam s a a v hr, if_pos rfl]
    · rw [peek_setRam s a b v hr, if_neg hb]
  · rw [regionOf_pagedRom, regionOf_osRom]
    omega
  · rw [write_eq]
    exact setBpHit_unchanged _ _
  · rw [write_eq]
    rfl

/-! ## The bytes an instruction leaves alone -/

/-- Settles O59: both clauses are those of the effect that the instruction's operation has. -/
theorem memoryFrame : Obligations.MemoryFrame := by
  intro i s t h
  have he := exec_effect h
  exact ⟨he.ram, he.bytes⟩

end Sys2Proof.Machine
end

section
/-! PROOF. The encoding (spec/30_encoding.md R110 to R117). Read from both sides: the bytes an instruction encodes to select it,
and what an opcode with its operand bytes selects encodes to them. Both are the table of R114, checked opcode by opcode; that
`decode` takes exactly the operand bytes of its opcode is said once for all of them. -/

namespace Sys2Proof.Laws.OpcodeByte

/-- The law of one opcode's row holds of every row of R114, the undefined ones among them (R116). -/
theorem statement : ∀ i : Instr, Statement i
  | .brk => brk | .oraIzx z => oraIzx z | .oraZp z => oraZp z | .aslZp z => aslZp z | .php => php | .oraImm i => oraImm i
  | .aslAcc => aslAcc | .oraAbs w => oraAbs w | .aslAbs w => aslAbs w | .bpl d => bpl d | .oraIzy z => oraIzy z
  | .oraZpx z => oraZpx z | .aslZpx z => aslZpx z | .clc => clc | .oraAby w => oraAby w | .oraAbx w => oraAbx w
  | .aslAbx w => aslAbx w | .jsr w => jsr w | .andIzx z => andIzx z | .bitZp z => bitZp z | .andZp z => andZp z
  | .rolZp z => rolZp z | .plp => plp | .andImm i => andImm i | .rolAcc => rolAcc | .bitAbs w => bitAbs w
  | .andAbs w => andAbs w | .rolAbs w => rolAbs w | .bmi d => bmi d | .andIzy z => andIzy z | .andZpx z => andZpx z
  | .rolZpx z => rolZpx z | .sec => sec | .andAby w => andAby w | .andAbx w => andAbx w | .rolAbx w => rolAbx w
  | .rti => rti | .eorIzx z => eorIzx z | .eorZp z => eorZp z | .lsrZp z => lsrZp z | .pha => pha | .eorImm i => eorImm i
  | .lsrAcc => lsrAcc | .jmpAbs w => jmpAbs w | .eorAbs w => eorAbs w | .lsrAbs w => lsrAbs w | .bvc d => bvc d
  | .eorIzy z => eorIzy z | .eorZpx z => eorZpx z | .lsrZpx z => lsrZpx z | .cli => cli | .eorAby w => eorAby w
  | .eorAbx w => eorAbx w | .lsrAbx w => lsrAbx w | .rts => rts | .adcIzx z => adcIzx z | .adcZp z => adcZp z
  | .rorZp z => rorZp z | .pla => pla | .adcImm i => adcImm i | .rorAcc => rorAcc | .jmpInd w => jmpInd w
  | .adcAbs w => adcAbs w | .rorAbs w => rorAbs w | .bvs d => bvs d | .adcIzy z => adcIzy z | .adcZpx z => adcZpx z
  | .rorZpx z => rorZpx z | .sei => sei | .adcAby w => adcAby w | .adcAbx w => adcAbx w | .rorAbx w => rorAbx w
  | .staIzx z => staIzx z | .styZp z => styZp z | .staZp z => staZp z | .stxZp z => stxZp z | .dey => dey | .txa => txa
  | .styAbs w => styAbs w | .staAbs w => staAbs w | .stxAbs w => stxAbs w | .bcc d => bcc d | .staIzy z => staIzy z
  | .styZpx z => styZpx z | .staZpx z => staZpx z | .stxZpy z => stxZpy z | .tya => tya | .staAby w => staAby w
  | .txs => txs | .staAbx w => staAbx w | .ldyImm i => ldyImm i | .ldaIzx z => ldaIzx z | .ldxImm i => ldxImm i
  | .ldyZp z => ldyZp z | .ldaZp z => ldaZp z | .ldxZp z => ldxZp z | .tay => tay | .ldaImm i => ldaImm i | .tax => tax
  | .ldyAbs w => ldyAbs w | .ldaAbs w => ldaAbs w | .ldxAbs w => ldxAbs w | .bcs d => bcs d | .ldaIzy z => ldaIzy z
  | .ldyZpx z => ldyZpx z | .ldaZpx z => ldaZpx z | .ldxZpy z => ldxZpy z | .clv => clv | .ldaAby w => ldaAby w
  | .tsx => tsx | .ldyAbx w => ldyAbx w | .ldaAbx w => ldaAbx w | .ldxAby w => ldxAby w | .cpyImm i => cpyImm i
  | .cmpIzx z => cmpIzx z | .cpyZp z => cpyZp z | .cmpZp z => cmpZp z | .decZp z => decZp z | .iny => iny
  | .cmpImm i => cmpImm i | .dex => dex | .cpyAbs w => cpyAbs w | .cmpAbs w => cmpAbs w | .decAbs w => decAbs w
  | .bne d => bne d | .cmpIzy z => cmpIzy z | .cmpZpx z => cmpZpx z | .decZpx z => decZpx z | .cld => cld
  | .cmpAby w => cmpAby w | .cmpAbx w => cmpAbx w | .decAbx w => decAbx w | .cpxImm i => cpxImm i | .sbcIzx z => sbcIzx z
  | .cpxZp z => cpxZp z | .sbcZp z => sbcZp z | .incZp z => incZp z | .inx => inx | .sbcImm i => sbcImm i | .nop => nop
  | .cpxAbs w => cpxAbs w | .sbcAbs w => sbcAbs w | .incAbs w => incAbs w | .beq d => beq d | .sbcIzy z => sbcIzy z
  | .sbcZpx z => sbcZpx z | .incZpx z => incZpx z | .sed => sed | .sbcAby w => sbcAby w | .sbcAbx w => sbcAbx w
  | .incAbx w => incAbx w | .undef02 => undef02 | .undef03 => undef03 | .undef04 => undef04 | .undef07 => undef07
  | .undef0B => undef0B | .undef0C => undef0C | .undef0F => undef0F | .undef12 => undef12 | .undef13 => undef13
  | .undef14 => undef14 | .undef17 => undef17 | .undef1A => undef1A | .undef1B => undef1B | .undef1C => undef1C
  | .undef1F => undef1F | .undef22 => undef22 | .undef23 => undef23 | .undef27 => undef27 | .undef2B => undef2B
  | .undef2F => undef2F | .undef32 => undef32 | .undef33 => undef33 | .undef34 => undef34 | .undef37 => undef37
  | .undef3A => undef3A | .undef3B => undef3B | .undef3C => undef3C | .undef3F => undef3F | .undef42 => undef42
  | .undef43 => undef43 | .undef44 => undef44 | .undef47 => undef47 | .undef4B => undef4B | .undef4F => undef4F
  | .undef52 => undef52 | .undef53 => undef53 | .undef54 => undef54 | .undef57 => undef57 | .undef5A => undef5A
  | .undef5B => undef5B | .undef5C => undef5C | .undef5F => undef5F | .undef62 => undef62 | .undef63 => undef63
  | .undef64 => undef64 | .undef67 => undef67 | .undef6B => undef6B | .undef6F => undef6F | .undef72 => undef72
  | .undef73 => undef73 | .undef74 => undef74 | .undef77 => undef77 | .undef7A => undef7A | .undef7B => undef7B
  | .undef7C => undef7C | .undef7F => undef7F | .undef80 => undef80 | .undef82 => undef82 | .undef83 => undef83
  | .undef87 => undef87 | .undef89 => undef89 | .undef8B => undef8B | .undef8F => undef8F | .undef92 => undef92
  | .undef93 => undef93 | .undef97 => undef97 | .undef9B => undef9B | .undef9C => undef9C | .undef9E => undef9E
  | .undef9F => undef9F | .undefA3 => undefA3 | .undefA7 => undefA7 | .undefAB => undefAB | .undefAF => undefAF
  | .undefB2 => undefB2 | .undefB3 => undefB3 | .undefB7 => undefB7 | .undefBB => undefBB | .undefBF => undefBF
  | .undefC2 => undefC2 | .undefC3 => undefC3 | .undefC7 => undefC7 | .undefCB => undefCB | .undefCF => undefCF
  | .undefD2 => undefD2 | .undefD3 => undefD3 | .undefD4 => undefD4 | .undefD7 => undefD7 | .undefDA => undefDA
  | .undefDB => undefDB | .undefDC => undefDC | .undefDF => undefDF | .undefE2 => undefE2 | .undefE3 => undefE3
  | .undefE7 => undefE7 | .undefEB => undefEB | .undefEF => undefEF | .undefF2 => undefF2 | .undefF3 => undefF3
  | .undefF4 => undefF4 | .undefF7 => undefF7 | .undefFA => undefFA | .undefFB => undefFB | .undefFC => undefFC
  | .undefFF => undefFF

end Sys2Proof.Laws.OpcodeByte

namespace Sys2Proof

open Laws.OpcodeByte (statement)

theorem bytes_wordOf (b c : Byte) : [loByte (wordOf b c), hiByte (wordOf b c)] = [b, c] := by
  have hlo : loByte (wordOf b c) = b := by
    rw [loByte, wordOf, BitVec.extractLsb'_append_eq_of_add_le (by decide), BitVec.extractLsb'_eq_self]
  have hhi : hiByte (wordOf b c) = c := by
    rw [hiByte, wordOf, BitVec.extractLsb'_append_eq_of_le (by decide), Nat.sub_self, BitVec.extractLsb'_eq_self]
  rw [hlo, hhi]

/-- No instruction is longer than three bytes (R111). -/
theorem operandCount_le (op : Byte) : operandCount op ≤ 2 := by
  unfold operandCount Instr.length
  cases (decodeOpcode op 0 0).mode <;> decide

/-- A byte is its two hexadecimal digits: the row and the place in the row of the table of R114. -/
theorem exists_digits (op : Byte) : ∃ hi lo : Fin 16, op = BitVec.ofNat 8 (16 * hi.val + lo.val) := by
  have hop := op.isLt
  refine ⟨⟨op.toNat / 16, by omega⟩, ⟨op.toNat % 16, by omega⟩, ?_⟩
  rw [Nat.div_add_mod, BitVec.ofNat_toNat, BitVec.setWidth_eq]

/-- What an opcode selects encodes to that opcode and to as many of the bytes after it as its format has: no bit of them is
dropped (R110, R112). An address is the one operand that is put together of two bytes. -/
theorem encode_decodeOpcode (op b c : Byte) : encode (decodeOpcode op b c) = op :: [b, c].take (operandCount op) := by
  obtain ⟨hi, lo, rfl⟩ := exists_digits op
  match hi with
  | 0 | 1 | 2 | 3 | 4 | 5 | 6 | 7 | 8 | 9 | 10 | 11 | 12 | 13 | 14 | 15 =>
    match lo with
    | 0 | 1 | 2 | 3 | 4 | 5 | 6 | 7 | 8 | 9 | 10 | 11 | 12 | 13 | 14 | 15 => first
      | rfl
      | exact congrArg (List.cons _) (bytes_wordOf b c)
    | ⟨_ + 16, h⟩ => omega
  | ⟨_ + 16, h⟩ => omega

/-- An opcode with all its operand bytes is decoded, and what follows them is left over (R111). -/
theorem decode_cons_append {op : Byte} {bs : List Byte} (h : bs.length = operandCount op) (rest : List Byte) :
    decode (op :: (bs ++ rest)) = .ok (decodeOpcode op (bs.getD 0 0) (bs.getD 1 0), rest) := by
  have hle := operandCount_le op
  match bs with
  | [] => simp [decode, ← h]
  | [b] => simp [decode, ← h]
  | [b, c] => simp [decode, ← h]
  | _ :: _ :: _ :: _ => simp only [List.length_cons] at h; omega

/-- Nothing else is decoded: a list that ends inside an instruction is rejected (R111). -/
theorem eq_cons_append_of_decode {bytes rest : List Byte} {i : Instr} (h : decode bytes = .ok (i, rest)) :
    ∃ op bs, bytes = op :: (bs ++ rest) ∧ bs.length = operandCount op ∧
      i = decodeOpcode op (bs.getD 0 0) (bs.getD 1 0) := by
  unfold decode at h
  split at h
  · cases h
  · next op r =>
    split at h
    · next hc => cases h; exact ⟨op, [], rfl, hc.symm, rfl⟩
    · next b _ hc => cases h; exact ⟨op, [b], rfl, hc.symm, rfl⟩
    · next b c _ hc => cases h; exact ⟨op, [b, c], rfl, hc.symm, rfl⟩
    · cases h

/-- A list of at most two bytes is what `encode_decodeOpcode` takes of its first two, each 0 where there is none. -/
theorem take_getD_of_length_le {bs : List Byte} (h : bs.length ≤ 2) :
    [bs.getD 0 0, bs.getD 1 0].take bs.length = bs := by
  match bs with
  | [] | [_] | [_, _] => rfl
  | _ :: _ :: _ :: _ => simp only [List.length_cons] at h; omega

/-- The opcode byte tells how many operand bytes there are, and with them selects the instruction (R110, R111). -/
theorem decode_encode (i : Instr) (rest : List Byte) : decode (encode i ++ rest) = .ok (i, rest) := by
  obtain ⟨-, hcount, hselect⟩ := statement i
  rw [encode, List.cons_append, decode_cons_append hcount.symm, hselect]

/-- Settles O1: the round trip holds of every instruction, since every one is well-formed. -/
theorem decodeAfterEncode : Obligations.DecodeAfterEncode := by
  intro i rest _
  exact decode_encode i rest

/-- Settles O2: the bytes read are an opcode and its operand bytes, which is what the instruction encodes to. -/
theorem encodeAfterDecode : Obligations.EncodeAfterDecode := by
  intro bytes rest i h
  obtain ⟨op, bs, rfl, hlen, rfl⟩ := eq_cons_append_of_decode h
  obtain ⟨hwf, -, -⟩ := statement (decodeOpcode op (bs.getD 0 0) (bs.getD 1 0))
  refine ⟨?_, hwf⟩
  rw [encode_decodeOpcode, ← hlen, take_getD_of_length_le (hlen ▸ operandCount_le op), List.cons_append]

/-- What an opcode selects has that opcode, whatever follows it (R110). -/
theorem opcode_decodeOpcode (op b c : Byte) : (decodeOpcode op b c).opcode = op :=
  (List.cons.inj (encode_decodeOpcode op b c)).1

/-- Settles O3: three bytes are enough for every opcode, and every instruction has a meaning that goes on. -/
theorem everyOpcodeHasMeaning : Obligations.EveryOpcodeHasMeaning := by
  intro op b c rest
  have hlen : ([b, c].take (operandCount op)).length = operandCount op := by simp [operandCount_le op]
  have hd := decode_cons_append hlen ([b, c].drop (operandCount op) ++ rest)
  rw [← List.append_assoc, List.take_append_drop] at hd
  exact ⟨_, _, hd, opcode_decodeOpcode _ _ _, Machine.exec_goesOn _⟩

/-- Settles O57: the flags of the effect that the instruction's operation has. -/
theorem flagsFrame : Obligations.FlagsFrame := by
  intro i s t h
  exact (Machine.exec_effect h).flags

/-- Settles O60: the cost of the effect that the instruction's operation has. -/
theorem instructionCost : Obligations.InstructionCost := by
  intro i s t h
  exact (Machine.exec_effect h).cost

/-- Settles O5: each word is what its instruction encodes to. -/
theorem sampleWordsDecode : Obligations.SampleWordsDecode := by
  exact ⟨decode_encode (.ldaImm 0x41) [], decode_encode (.stxZpy 0xF8) [], decode_encode (.adcAbx 0x1234) [],
    decode_encode (.cmpIzy 0x40) [], decode_encode (.eorIzx 0x12) [], decode_encode (.bitAbs 0xFE00) [],
    decode_encode .rorAcc [], decode_encode (.decAbx 0x12F0) [], decode_encode .tsx [], decode_encode .sed [],
    decode_encode .plp [], decode_encode (.bne 0xF8) [], decode_encode (.jmpInd 0x02FF) [],
    decode_encode .brk [0xEA], decode_encode .undef89 [0x01]⟩

end Sys2Proof
end

section
/-! PROOF. The fetch of an instruction and the iteration (spec/40_execution.md R141, R145, R149): in a burst the step is one
iteration, and where no event comes first that is exec of the instruction which the decoder reads at PC. -/

namespace Sys2Proof

theorem Instr.length_eq (i : Instr) : i.length = i.operand.bytes.length + 1 := by
  unfold Instr.length Instr.mode
  cases i.operand with
  | source x => cases x with
    | imm _ => rfl
    | mem m => cases m <;> rfl
  | _ => rfl

/-- The opcode byte gives the length, whatever the operand bytes are (30_encoding.md R111). -/
theorem length_decodeOpcode (op b c : Byte) : (decodeOpcode op b c).length = operandCount op + 1 := by
  obtain ⟨-, hcount, -⟩ := Laws.OpcodeByte.statement (decodeOpcode op b c)
  rw [Instr.length_eq, ← hcount, opcode_decodeOpcode]

end Sys2Proof

namespace Sys2Proof.Machine

/-! ## Bookkeeping: what single updates change -/

theorem setBpHit_eq_self {s : State} {b : Bool} (h : s.bpHit = b) : s.setBpHit b = s := h ▸ rfl

theorem setCurrent_unchanged (s : State) (v : Byte) : UnchangedBut [.currentInstruction] s (s.setCurrent v) := by
  intro f hf
  cases f <;> simp [Same] at hf ⊢

theorem setNmi_unchanged (s : State) (b : Bool) : UnchangedBut [.nmiPending] s (s.setNmi b) := by
  intro f hf
  cases f <;> simp [Same] at hf ⊢

theorem frameReturn_unchanged (r : FrameResult) (s : State) : UnchangedBut [.driver, .output] s (frameReturn r s) := by
  intro f hf
  cases f <;> simp [Same, frameReturn] at hf ⊢

/-! ## The fetch -/

theorem next_address (a : Word) (k : Nat) : a + 1 + BitVec.ofNat 16 k = a + BitVec.ofNat 16 (k + 1) := by
  rw [Nat.add_comm k, BitVec.ofNat_add, ← BitVec.add_assoc]
  rfl

/-- No read looks at `current_instruction` (10_state.md R46). -/
theorem readEffect_setCurrent (a : Word) (v : Byte) (s : State) :
    readEffect a (s.setCurrent v) = (readEffect a s).setCurrent v := by
  unfold readEffect ulaReadEffect
  split
  · split
    · rfl
    · split <;> rfl
  · rfl

theorem fetchByte_setCurrent (v : Byte) (s : State) :
    fetchByte (s.setCurrent v) = ((fetchByte s).1, (fetchByte s).2.setCurrent v) := by
  rw [fetchByte_eq, fetchByte_eq, State.setCurrent_pc, readEffect_setCurrent]
  rfl

/-- `n` fetches of a byte, one after the other. -/
def fetchBytes : Nat → State → State
  | 0, s => s
  | n + 1, s => fetchBytes n (fetchByte s).2

theorem fetchBytes_pc (n : Nat) (s : State) : (fetchBytes n s).pc = s.pc + BitVec.ofNat 16 n := by
  induction n generalizing s with
  | zero => simp [fetchBytes]
  | succ n ih => rw [fetchBytes, ih, fetchByte_pc, next_address]

theorem fetchBytes_unchanged (n : Nat) (s : State) :
    UnchangedBut [.pc, .bpHit, .intStatus, .irqPending] s (fetchBytes n s) := by
  induction n generalizing s with
  | zero => exact .refl _ s
  | succ n ih => exact ((fetchByte_unchanged s).trans (ih _)).mono (by decide)

theorem fetchBytes_quiet {n : Nat} {s : State} (h : ∀ k, k < n → QuietRead (s.pc + BitVec.ofNat 16 k)) :
    UnchangedBut [.pc, .bpHit] s (fetchBytes n s) := by
  induction n generalizing s with
  | zero => exact .refl _ s
  | succ n ih =>
    have hfirst : QuietRead s.pc := by simpa using h 0 n.succ_pos
    have hrest : ∀ k, k < n → QuietRead ((fetchByte s).2.pc + BitVec.ofNat 16 k) := by
      intro k hk
      rw [fetchByte_pc, next_address]
      exact h (k + 1) (Nat.succ_lt_succ hk)
    exact ((fetchByte_quiet s hfirst).trans (ih hrest)).mono (by decide)

/-- The kind of the breakpoint stays as it is, so with no read breakpoint set no fetch hits one (40_execution.md R150). -/
theorem fetchBytes_bpHit {s : State} (n : Nat) (h : s.bpKind ≠ .onRead) : (fetchBytes n s).bpHit = s.bpHit := by
  induction n generalizing s with
  | zero => rfl
  | succ n ih =>
    have hkind : (fetchByte s).2.bpKind = s.bpKind := fetchByte_unchanged s .bpKind (by decide)
    rw [fetchBytes, ih (hkind ▸ h), fetchByte_bpHit s h]

/-- The operand bytes are fetched as they stood when the opcode was: a read touches nothing that the next two addresses read as
(20_memory.md R88). -/
theorem fetchByte_operand (s : State) : (fetchByte (fetchByte s).2).1 = peek s (s.pc + 1) ∧
    (fetchByte (fetchByte (fetchByte s).2).2).1 = peek s (s.pc + 2) := by
  have hpc : (fetchByte s).2.pc + 1 = s.pc + 2 := fetchByte_pc s ▸ next_address s.pc 1
  rw [fetchByte_val, fetchByte_val, fetchByte_pc, fetchByte_pc, hpc]
  refine ⟨peek_fetchByte_next s 1 (.inl rfl), ?_⟩
  have hsecond : peek (fetchByte (fetchByte s).2).2 (s.pc + 2) = peek (fetchByte s).2 (s.pc + 2) :=
    hpc ▸ peek_fetchByte_next (fetchByte s).2 1 (.inl rfl)
  exact hsecond.trans (peek_fetchByte_next s 2 (.inr rfl))

/-- The instruction fetched is the one that is decoded at PC, and the state is that after one fetch for each of its bytes, with
the opcode recorded (40_execution.md R145, 20_memory.md R94). -/
theorem fetchInstr_spec (s : State) :
    (∃ rest, decode [peek s s.pc, peek s (s.pc + 1), peek s (s.pc + 2)] = .ok ((fetchInstr s).1, rest)) ∧
    (fetchInstr s).2 = (fetchBytes (operandCount (peek s s.pc) + 1) s).setCurrent (peek s s.pc) := by
  obtain ⟨hb, hc⟩ := fetchByte_operand s
  have hle := operandCount_le (peek s s.pc)
  simp only [fetchInstr, fetchByte_setCurrent, fetchByte_val s, hb, hc, decode]
  match operandCount (peek s s.pc), hle with
  | 0, _ | 1, _ | 2, _ => exact ⟨⟨_, rfl⟩, rfl⟩

theorem fetchInstr_eq_of_decode {s : State} {i : Instr} {rest : List Byte}
    (h : decode [peek s s.pc, peek s (s.pc + 1), peek s (s.pc + 2)] = .ok (i, rest)) :
    fetchInstr s = (i, (fetchBytes i.length s).setCurrent (peek s s.pc)) := by
  obtain ⟨⟨rest', hfetched⟩, hstate⟩ := fetchInstr_spec s
  have hi : (fetchInstr s).1 = i := by
    rw [hfetched] at h
    cases h
    rfl
  obtain ⟨op, bs, hbytes, -, hop⟩ := eq_cons_append_of_decode h
  have hlen : i.length = operandCount (peek s s.pc) + 1 := by
    rw [hop, length_decodeOpcode, (List.cons.inj hbytes).1]
  exact Prod.ext hi (hlen ▸ hstate)

theorem fetchInstr_unchanged (s : State) :
    UnchangedBut [.pc, .currentInstruction, .bpHit, .intStatus, .irqPending] s (fetchInstr s).2 := by
  rw [(fetchInstr_spec s).2]
  exact ((fetchBytes_unchanged _ s).trans (setCurrent_unchanged _ _)).mono (by decide)

/-! ## The iteration -/

/-- Step 3: with no interrupt first, an address breakpoint at PC is hit and nothing else happens (40_execution.md R149). -/
theorem iteration_breakpoint {s : State} (hn : s.nmiPending = false) (hi : s.irqPending = false ∨ getFlag s.p .i = true)
    (hb : s.bpKind = .atAddress ∧ s.bpAddr = s.pc) : iteration s = .next (s.setBpHit true) := by
  have hirq : (s.irqPending && !getFlag s.p .i) = false := by rcases hi with h | h <;> simp [h]
  simp [iteration, hn, hirq, hb]

/-- Step 4: with no event first, the iteration is the fetched instruction (40_execution.md R141). -/
theorem iteration_of_noEvent {s : State} (h : s.NoEvent) :
    iteration s = exec (fetchInstr s).1 (fetchInstr s).2 := by
  obtain ⟨hn, hi, hb⟩ := h
  have hirq : (s.irqPending && !getFlag s.p .i) = false := by rcases hi with h | h <;> simp [h]
  simp [iteration, hn, hirq, hb]

/-! ## The step of a running frame -/

theorem step_of_running {s : State} (h : s.driver = .runningFrame) : step s = frameStep s := by
  simp [step, driverStep, h]

theorem frameStep_breakpoint {s : State} (h : s.bpHit = true) :
    frameStep s = .next (frameReturn .breakpoint (s.setBpHit false)) := by
  simp [frameStep, h]

theorem frameStep_burst {s : State} (h : s.bpHit = false) (hc : s.cycleTime < 128) : frameStep s = iteration s := by
  simp [frameStep, h, scanlineCycles, hc]

theorem frameStep_endOfScanline {s : State} (h : s.bpHit = false) (hc : 128 ≤ s.cycleTime) : frameStep s = .next
    (if (endOfScanline s).scanline = 0 then frameReturn .frameComplete (endOfScanline s) else endOfScanline s) := by
  simp [frameStep, h, scanlineCycles, Nat.not_lt.2 hc]

theorem step_of_inBurst {s : State} (h : s.InBurst) : step s = iteration s := by
  obtain ⟨hd, hb, hc⟩ := h
  rw [step_of_running hd, frameStep_burst hb hc]

/-- Settles O6: the step is the iteration, the iteration the instruction decoded at PC, and the state its fetch leaves is that
after one fetch for each of its bytes. -/
theorem stepRunsDecodedInstruction : Obligations.StepRunsDecodedInstruction := by
  intro s i rest hburst hquiet hdecode _
  have hfetch := fetchInstr_eq_of_decode hdecode
  have htouched := fetchInstr_unchanged s
  rw [step_of_inBurst hburst, iteration_of_noEvent hquiet]
  rw [hfetch] at htouched ⊢
  refine ⟨rfl, rfl, fetchBytes_pc i.length s, rfl, htouched, fun hq => ?_, fun hk => fetchBytes_bpHit i.length hk⟩
  exact ((fetchBytes_quiet hq).trans (setCurrent_unchanged _ (peek s s.pc))).mono (by decide)

/-- Settles O44: the iteration sets the hit alone, and the step after it hands the state as it was back to the host. -/
theorem addressBreakpointStops : Obligations.AddressBreakpointStops := by
  intro s hburst hn hi hkind haddr
  have hstop : step s = .next (s.setBpHit true) := by
    rw [step_of_inBurst hburst, iteration_breakpoint hn hi ⟨hkind, haddr⟩]
  obtain ⟨hd, hb, -⟩ := hburst
  have hrunning : (s.setBpHit true).driver = .runningFrame := hd
  have hback : (s.setBpHit true).setBpHit false = s := setBpHit_eq_self hb
  have hreturn : step (s.setBpHit true) = .next (frameReturn .breakpoint s) := by
    rw [step_of_running hrunning, frameStep_breakpoint rfl, hback]
  exact ⟨s.setBpHit true, frameReturn .breakpoint s, hstop, rfl, setBpHit_unchanged s true, hreturn, hb, rfl, rfl,
    frameReturn_unchanged .breakpoint s⟩

end Sys2Proof.Machine
end

section
/-! PROOF. The burst and the frame (spec/40_execution.md R140 to R143, R148; spec/60_exceptions.md R450 to R453). Each pass of the
burst's loop is one step of the machine and goes on in time, so the loop ends; a frame is bursts and ends of scanlines, at most
312 of them, and each of these is a step too. -/

namespace Sys2Proof.Machine

/-! ## What an iteration can do -/

/-- An iteration enters NMI or IRQ, hits the address breakpoint, or runs the fetched instruction (40_execution.md R141). -/
theorem iteration_cases {s t : State} (h : iteration s = .next t) :
    t = (enterInterrupt vectorNmi s).setNmi false ∨ t = enterInterrupt vectorIrq s ∨ t = s.setBpHit true ∨
      exec (fetchInstr s).1 (fetchInstr s).2 = .next t := by
  unfold iteration at h
  split at h
  · cases h; exact .inl rfl
  split at h
  · cases h; exact .inr (.inl rfl)
  split at h
  · cases h; exact .inr (.inr (.inl rfl))
  · exact .inr (.inr (.inr h))

/-- The vectors of NMI and IRQ are in ROM (60_exceptions.md R411). -/
theorem enterInterrupt_nmi (s : State) :
    ExceptionEntry vectorNmi (s.pc - 1) false s (enterInterrupt vectorNmi s) :=
  takeException_entry _ _ _ _ (by decide) (by decide)

theorem enterInterrupt_irq (s : State) :
    ExceptionEntry vectorIrq (s.pc - 1) false s (enterInterrupt vectorIrq s) :=
  takeException_entry _ _ _ _ (by decide) (by decide)

/-- An iteration costs 2 to 7 cycles, but for the breakpoint stop, which costs none (40_execution.md R148,
70_reset_and_hazards.md R522). -/
theorem iteration_cycleTime {s t : State} (h : iteration s = .next t) :
    (t.bpHit = true ∨ s.cycleTime + 2 ≤ t.cycleTime) ∧ s.cycleTime ≤ t.cycleTime ∧ t.cycleTime ≤ s.cycleTime + 7 := by
  rcases iteration_cases h with rfl | rfl | rfl | hexec
  · have ht : ((enterInterrupt vectorNmi s).setNmi false).cycleTime = s.cycleTime + 7 := (enterInterrupt_nmi s).time
    omega
  · have ht := (enterInterrupt_irq s).time
    omega
  · exact ⟨.inl rfl, Nat.le_refl _, Nat.le_add_right _ _⟩
  · have hf : (fetchInstr s).2.cycleTime = s.cycleTime := fetchInstr_unchanged s .cycleTime (by decide)
    have hc := (exec_effect hexec).cost
    omega

/-- The registers, memory and the ULA: the fields that an iteration can change. The driver and the counters of the timer are
none of them. -/
def iterationFields : List Field :=
  [.a, .x, .y, .sp, .p, .pc, .cycleTime, .irqPending, .nmiPending, .bpHit, .currentInstruction, .ram, .page, .sheila,
    .intStatus, .enableMask, .dataShiftHasData, .output]

theorem exec_unchanged {i : Instr} {s t : State} (h : exec i s = .next t) : UnchangedBut iterationFields s t := by
  have hregs : i.registersWritten ⊆ [.a, .x, .y, .sp] := (operation_of_exec h).registers
  have hall : [Field.a, .x, .y, .sp] ⊆ iterationFields := by decide
  exact (exec_effect h).fields.mono (List.append_subset.2 ⟨List.Subset.trans hregs hall, by decide⟩)

theorem iteration_unchanged {s t : State} (h : iteration s = .next t) : UnchangedBut iterationFields s t := by
  rcases iteration_cases h with rfl | rfl | rfl | hexec
  · exact ((enterInterrupt_nmi s).otherFields.trans (setNmi_unchanged _ false)).mono (by decide)
  · exact (enterInterrupt_irq s).otherFields.mono (by decide)
  · exact (setBpHit_unchanged s true).mono (by decide)
  · exact ((fetchInstr_unchanged s).trans (exec_unchanged hexec)).mono (by decide)

/-! ## The burst -/

/-- Some number of transitions of `r`, one after the other. -/
inductive Many (r : State → State → Prop) : State → State → Prop where
  | refl (s : State) : Many r s s
  | head {s t u : State} (first : r s t) (rest : Many r t u) : Many r s u

theorem Many.trans {r : State → State → Prop} {s t u : State} (h : Many r s t) (h' : Many r t u) : Many r s u := by
  induction h with
  | refl => exact h'
  | head first _ ih => exact .head first (ih h')

/-- One pass of the loop of `FetchExecute(target)` (40_execution.md R140). -/
def Pass (target : Nat) (s t : State) : Prop :=
  s.cycleTime < target ∧ s.bpHit = false ∧ iteration s = .next t

/-- Some number of passes. -/
abbrev Passes (target : Nat) : State → State → Prop := Many (Pass target)

/-- What the loop ends with: its condition is false (40_execution.md R142). -/
def BurstOver (target : Nat) (s : State) : Prop := s.bpHit = true ∨ target ≤ s.cycleTime

theorem burst_of_over {target : Nat} {s : State} (fuel : Nat) (h : BurstOver target s) : burst fuel target s = .next s := by
  cases fuel with
  | zero => rfl
  | succ fuel =>
    have hcond : ¬(s.cycleTime < target ∧ s.bpHit = false) := by
      rintro ⟨hc, hb⟩
      rcases h with h | h
      · exact Bool.false_ne_true (hb.symm.trans h)
      · omega
    simp [burst, hcond]

theorem burst_of_pass {target : Nat} {s t : State} (fuel : Nat) (h : Pass target s t) :
    burst (fuel + 1) target s = burst fuel target t := by
  obtain ⟨hc, hb, hi⟩ := h
  simp [burst, hc, hb, hi, andThen]

/-- A pass hits the breakpoint or goes on in time, so as much fuel as there are cycles to go is enough (log 19). -/
theorem burst_passes {target : Nat} (fuel : Nat) (s : State) (hf : s.bpHit = true ∨ target ≤ s.cycleTime + fuel) :
    ∃ t, burst fuel target s = .next t ∧ Passes target s t ∧ BurstOver target t := by
  induction fuel generalizing s with
  | zero => exact ⟨s, rfl, .refl s, hf⟩
  | succ fuel ih =>
    by_cases hover : BurstOver target s
    · exact ⟨s, burst_of_over _ hover, .refl s, hover⟩
    obtain ⟨hb, hc⟩ := not_or.1 hover
    obtain ⟨u, hu⟩ := iteration_goesOn s
    have hpass : Pass target s u := ⟨Nat.lt_of_not_le hc, Bool.eq_false_iff.2 hb, hu⟩
    have hfuel : u.bpHit = true ∨ target ≤ u.cycleTime + fuel := by
      have hs := hf.resolve_left hb
      exact (iteration_cycleTime hu).1.imp id fun hprogress => by omega
    obtain ⟨t, ht, hpasses, hend⟩ := ih u hfuel
    exact ⟨t, (burst_of_pass fuel hpass).trans ht, .head hpass hpasses, hend⟩

theorem fetchExecute_passes (target : Nat) (s : State) :
    ∃ t, fetchExecute target s = .next t ∧ Passes target s t ∧ BurstOver target t :=
  burst_passes _ s (.inr (by omega))

/-- Time never goes back, and every pass starts below the target (40_execution.md R143). -/
theorem Passes.cycleTime {target : Nat} {s t : State} (h : Passes target s t) :
    s.cycleTime ≤ t.cycleTime ∧ (t.cycleTime ≤ s.cycleTime ∨ t.cycleTime ≤ target + 6) := by
  induction h with
  | refl => exact ⟨Nat.le_refl _, .inl (Nat.le_refl _)⟩
  | head first _ ih =>
    obtain ⟨hc, -, hi⟩ := first
    obtain ⟨-, hle, hcost⟩ := iteration_cycleTime hi
    omega

theorem Passes.unchanged {target : Nat} {s t : State} (h : Passes target s t) : UnchangedBut iterationFields s t := by
  induction h with
  | refl s => exact .refl _ s
  | head first _ ih => exact ((iteration_unchanged first.2.2).trans ih).mono (by decide)

/-- Settles O52: the passes of the loop, of which there is none when it is over at the start. -/
theorem burstEnds : Obligations.BurstEnds := by
  intro target s
  obtain ⟨t, ht, hpasses, hover⟩ := fetchExecute_passes target s
  obtain ⟨hle, hbound⟩ := hpasses.cycleTime
  refine ⟨t, ht, hover, hle, fun hbelow => by omega, fun hstart => ?_⟩
  have hsame : fetchExecute target s = .next s := burst_of_over _ hstart
  rw [hsame] at ht
  cases ht
  rfl

/-! ## The frame -/

/-- Some number of steps, none of which stops. -/
abbrev Reaches : State → State → Prop := Many fun s t => step s = .next t

theorem run_succ_of_step {M : Host.Core} {s t : M.State} (n : Nat) (h : M.step s = .next t) :
    M.run (n + 1) s = M.run n t := by
  rw [Host.Core.run, h]

theorem Reaches.exists_run {s t : State} (h : Reaches s t) : ∃ n, Host.Core.run Sys2Proof.core n s = .next t := by
  induction h with
  | refl => exact ⟨0, rfl⟩
  | head hstep _ ih =>
    obtain ⟨n, hn⟩ := ih
    exact ⟨n + 1, (run_succ_of_step (M := Sys2Proof.core) n hstep).trans hn⟩

/-- In a running frame the passes of a scanline's burst are steps (40_execution.md R141, 60_exceptions.md R450). -/
theorem Passes.reaches {s t : State} (h : Passes scanlineCycles s t) (hd : s.driver = .runningFrame) : Reaches s t := by
  induction h with
  | refl s => exact .refl s
  | @head s u _ first _ ih =>
    obtain ⟨hc, hb, hi⟩ := first
    have hu : u.driver = s.driver := iteration_unchanged hi .driver (by decide)
    have hstep : step s = .next u := (step_of_inBurst ⟨hd, hb, hc⟩).trans hi
    exact .head hstep (ih (hu.trans hd))

/-- One scanline of a frame, as steps: its burst, and then the breakpoint's return or the end of the scanline (R450, R452). -/
theorem scanline_reaches {s t : State} (hd : s.driver = .runningFrame) (hp : Passes scanlineCycles s t)
    (hover : BurstOver scanlineCycles t) :
    Reaches s (if t.bpHit then frameReturn .breakpoint (t.setBpHit false)
      else if (endOfScanline t).scanline = 0 then frameReturn .frameComplete (endOfScanline t) else endOfScanline t) := by
  have ht : t.driver = .runningFrame := (hp.unchanged .driver (by decide)).trans hd
  refine (hp.reaches hd).trans (.head ?_ (.refl _))
  rw [step_of_running ht]
  cases hb : t.bpHit with
  | true => exact frameStep_breakpoint hb
  | false => exact frameStep_endOfScanline hb (hover.resolve_left (hb ▸ Bool.false_ne_true))

/-- The scanlines that are left of a frame are enough fuel, since the counter wraps to 0 (60_exceptions.md R451, log 19). -/
theorem runScanlines_reaches (fuel : Nat) (s : State) (hd : s.driver = .runningFrame)
    (hf : 312 ≤ s.scanline % 312 + fuel) :
    ∃ r t, runScanlines fuel s = .next (r, t) ∧ Reaches s (frameReturn r t) := by
  induction fuel generalizing s with
  | zero => omega
  | succ fuel ih =>
    obtain ⟨t, ht, hpasses, hover⟩ := fetchExecute_passes scanlineCycles s
    have hreach := scanline_reaches hd hpasses hover
    rw [runScanlines, ht, andThen]
    split
    case isTrue hit =>
      rw [if_pos hit] at hreach
      exact ⟨_, _, rfl, hreach⟩
    case isFalse miss =>
      rw [if_neg miss] at hreach
      dsimp only
      split
      case isTrue wrapped =>
        rw [if_pos wrapped] at hreach
        exact ⟨_, _, rfl, hreach⟩
      case isFalse more =>
        rw [if_neg more] at hreach
        have hline : t.scanline = s.scanline := hpasses.unchanged .scanline (by decide)
        have hdriver : (endOfScanline t).driver = t.driver := endOfScanline_unchanged t .driver (by decide)
        have hrunning : t.driver = s.driver := hpasses.unchanged .driver (by decide)
        rw [endOfScanline_scanline, hline] at more
        obtain ⟨r, u, hu, hrest⟩ := ih (endOfScanline t) (hdriver.trans (hrunning.trans hd))
          (by rw [endOfScanline_scanline, hline]; omega)
        exact ⟨r, u, hu, hreach.trans hrest⟩

/-- Settles O53: from any scanline, 312 of them are a frame, and each of these is a number of steps. -/
theorem stepsRunTheFrame : Obligations.StepsRunTheFrame := by
  intro s hd
  obtain ⟨r, t, hframe, hreach⟩ := runScanlines_reaches frameLines s hd (Nat.le_add_left _ _)
  obtain ⟨n, hn⟩ := hreach.exists_run
  exact ⟨n, r, t, hframe, hn⟩

end Sys2Proof.Machine
end

section
/-! PROOF. Operands (spec/41_addressing.md R170 to R179, R188): the address of every mode as a number, the carry of its low-byte
addition, and what the reads of a pointer and of an operand leave behind. -/

namespace Sys2Proof.Machine

/-! ## The address and the carry as numbers -/

theorem peek_zeroPage (z : Byte) (s : State) : peek s (zeroPage z) = ramByte s z.toNat := by
  rw [peek_ram (regionOf_ram.1 (regionOf_zeroPage z)), zeroPage_toNat]

theorem indexed_toNat (base : Word) (idx : Byte) : (indexed base idx).toNat = (base.toNat + idx.toNat) % 65536 := by
  have hidx : (idx.setWidth 16).toNat = idx.toNat := BitVec.toNat_setWidth_of_le (by decide)
  rw [indexed, BitVec.toNat_add, hidx]

theorem loByte_toNat (w : Word) : (loByte w).toNat = w.toNat % 256 := by
  simp [loByte]

theorem pageCrossed_eq (base : Word) (idx : Byte) :
    pageCrossed base idx = decide (base.toNat % 256 + idx.toNat > 0xFF) := by
  rw [pageCrossed, loByte_toNat]

/-- Both bytes of a pointer are in page zero: its second address wraps at 8 bits (R178, R179). -/
theorem readPointer_toNat {z : Byte} {k : Nat} (h : z.toNat = k % 256) (s : State) :
    (readPointer z s).1.toNat = (ramByte s (k % 256)).toNat + 256 * (ramByte s ((k + 1) % 256)).toNat := by
  have hnext : (z + 1).toNat = (k + 1) % 256 := by
    rw [BitVec.toNat_add, h]
    exact Nat.mod_add_mod k 256 1
  rw [readPointer_eq, wordOf_toNat, peek_zeroPage, peek_zeroPage, h, hnext]

/-! ## The addressing modes -/

theorem address_ea (m : AddrMode) (s : State) : (address m s).ea.toNat = effectiveAddress m s := by
  cases m with
  | zp z => exact zeroPage_toNat z
  | zpx z => exact (zeroPage_toNat _).trans (BitVec.toNat_add z s.x)
  | zpy z => exact (zeroPage_toNat _).trans (BitVec.toNat_add z s.y)
  | abs w => rfl
  | abx w => exact indexed_toNat w s.x
  | aby w => exact indexed_toNat w s.y
  | izx z => exact readPointer_toNat (BitVec.toNat_add z s.x) s
  | izy z =>
    have hpointer := readPointer_toNat (Nat.mod_eq_of_lt z.isLt).symm s
    exact (indexed_toNat _ s.y).trans (by rw [hpointer]; rfl)

/-- Three modes add an index to a 16-bit base, and so can cross a page (R170); the low byte of the base of (zero page),Y is the
pointer's first byte (R179). -/
theorem address_crossed (m : AddrMode) (s : State) : (address m s).crossed = effectiveCrossing m s := by
  cases m with
  | abx w => exact pageCrossed_eq w s.x
  | aby w => exact pageCrossed_eq w s.y
  | izy z =>
    have hlow : (readPointer z s).1.toNat % 256 = (ramByte s z.toNat).toNat := by
      rw [readPointer_eq, wordOf_toNat, peek_zeroPage, Nat.add_mul_mod_self_left]
      exact Nat.mod_eq_of_lt (ramByte s z.toNat).isLt
    exact (pageCrossed_eq _ s.y).trans (by rw [hlow]; rfl)
  | zp _ | zpx _ | zpy _ | abs _ | izx _ => rfl

/-- Settles O12: address and crossing mode by mode, and the pointer reads by what they leave behind. -/
theorem effectiveAddresses : Obligations.EffectiveAddresses := by
  intro m s
  obtain ⟨b, hst, hkeep⟩ := address_st m s
  rw [hst]
  exact ⟨address_ea m s, address_crossed m s, setBpHit_unchanged s b, fun hk => setBpHit_eq_self (hkeep hk).symm⟩

/-! ## The operand read -/

/-- Settles O13: the read of a memory operand leaves the effect of one read of EA and a breakpoint hit, which stays as it was
without a read breakpoint; no effect of a read is on the hit. -/
theorem operandRead : Obligations.OperandRead := by
  refine ⟨fun _ _ => ⟨rfl, rfl⟩, fun m s => ?_⟩
  obtain ⟨hval, hcrossed, b, hst, hkeep⟩ := readOperand_mem m s
  refine ⟨hval, hcrossed, readOperand_unchanged (.mem m) s, fun hq => ?_, fun hk => ?_⟩
  · rw [hst, readEffect_of_quiet hq]
    exact setBpHit_unchanged s b
  · have hhit : (readEffect (address m s).ea s).bpHit = s.bpHit := readEffect_unchanged _ s .bpHit (by decide)
    rw [hst, setBpHit_eq_self (hhit.trans (hkeep hk).symm)]

end Sys2Proof.Machine
end

section
/-! PROOF. Loads and stores (spec/42_load_store.md R200 to R206): the cost of the read and write classes by the addressing mode,
what writing a register with its flags does, and what the write of a store leaves behind. -/

namespace Sys2Proof.Machine

/-! ## The cost of an operand -/

/-- The penalty of R184 on the base cost of a mode is the mode's cost: a mode whose cost has no penalty never crosses. -/
theorem readCost_address (m : AddrMode) (s : State) :
    readCost (modeCycles (.mem m) false) (address m s).crossed = modeCycles (.mem m) (address m s).crossed := by
  cases m with
  | zp _ | zpx _ | zpy _ | abs _ | izx _ => rfl
  | abx _ | aby _ | izy _ => cases (address _ s).crossed <;> rfl

theorem readCost_readOperand (x : Source) (s : State) :
    readCost (modeCycles x false) (readOperand x s).crossed = modeCycles x (readOperand x s).crossed := by
  cases x with
  | imm _ => rfl
  | mem m => exact readCost_address m s

/-- At the default timing the write class costs what the read class does (R185). -/
theorem writeCost_address (m : AddrMode) (s : State) :
    writeCost indexedStoreTiming (modeCycles (.mem m) false) m (address m s).crossed =
      modeCycles (.mem m) (address m s).crossed :=
  readCost_address m s

/-! ## Writing a register, and N and Z -/

@[simp] theorem getReg_setRegNZ (r : Reg) (v : Byte) (s : State) : getReg r (setRegNZ r v s) = v := by
  cases r <;> rfl

@[simp] theorem getReg_charge (r : Reg) (n : Nat) (s : State) : getReg r (charge n s) = getReg r s := by
  cases r <;> rfl

@[simp] theorem setRegNZ_p (r : Reg) (v : Byte) (s : State) : (setRegNZ r v s).p = setNZ v s.p := by
  cases r <;> rfl

@[simp] theorem setRegNZ_cycleTime (r : Reg) (v : Byte) (s : State) : (setRegNZ r v s).cycleTime = s.cycleTime := by
  cases r <;> rfl

theorem setRegNZ_unchanged (r : Reg) (v : Byte) (s : State) : UnchangedBut [r.field, .p] s (setRegNZ r v s) :=
  ((UnchangedBut.refl _ s).setReg r v (List.mem_cons_self ..)).setP _ (by simp)

theorem getFlag_setNZ_n (v p : Byte) : getFlag (setNZ v p) .n = v.getLsbD 7 :=
  (getFlag_setNZ v p .n).trans (BitVec.msb_eq_getLsbD_last v)

theorem getFlag_setNZ_z (v p : Byte) : getFlag (setNZ v p) .z = (v == 0) := getFlag_setNZ v p .z

/-! ## A store -/

/-- The pointer reads of an addressing mode leave the registers. -/
theorem getReg_address (r : Reg) (m : AddrMode) (s : State) : getReg r (address m s).st = getReg r s := by
  obtain ⟨b, hst, -⟩ := address_st m s
  rw [hst]
  cases r <;> rfl

/-- The pointer reads of an addressing mode leave every byte. -/
theorem peek_address (m : AddrMode) (s : State) (a : Word) : peek (address m s).st a = peek s a :=
  peek_of_unchanged (address_unchanged m s) (by decide) a

/-- A store is one checked write at EA of the register as it was, and the charge (R200). -/
theorem store_eq (r : Reg) (m : AddrMode) (s : State) :
    store r m (modeCycles (.mem m) false) s =
      charge (modeCycles (.mem m) (address m s).crossed) (write (address m s).ea (getReg r s) (address m s).st) := by
  rw [store, writeCost_address, getReg_address]

/-- What every address reads as after a write at an EA outside the peripheral window: the byte where EA is RAM, the old bytes
elsewhere. -/
theorem peek_write_address {m : AddrMode} {s : State} (h : regionOf (address m s).ea ≠ .peripheral) (v : Byte) (a : Word) :
    peek (write (address m s).ea v (address m s).st) a =
      if a = (address m s).ea ∧ regionOf (address m s).ea = .ram then v else peek s a := by
  rw [peek_write_of_region h, peek_address]

end Sys2Proof.Machine

namespace Sys2Proof

open Machine

/-! ## Loads

`Machine.loadResult` is the model's own, of a ROM load; the theorem on LDA, LDX and LDY stands outside that namespace. -/

/-- Settles O17: after the operand read, which moves neither P nor the time, a load writes its register, N and Z, and is
charged. -/
theorem loadResult : Obligations.LoadResult := by
  intro i s x r hm ho o
  have hread := readOperand_unchanged x s
  have hp : o.st.p = s.p := hread .p (by decide)
  have htime : o.st.cycleTime = s.cycleTime := hread .cycleTime (by decide)
  have hflags : (setRegNZ r o.val o.st).p = setNZ o.val s.p := by rw [setRegNZ_p, hp]
  have hwrite : UnchangedBut [r.field, .p, .cycleTime] o.st (setRegNZ r o.val o.st) :=
    (setRegNZ_unchanged r o.val o.st).mono (by simp)
  refine ⟨charge (readCost (modeCycles x false) o.crossed) (setRegNZ r o.val o.st), exec_load hm ho s, ?_, ?_, ?_, ?_, ?_, ?_⟩
  · rw [getReg_charge, getReg_setRegNZ]
  · rw [charge_p, hflags, getFlag_setNZ_n]
  · rw [charge_p, hflags, getFlag_setNZ_z]
  · rw [charge_p, hflags]
    exact setNZ_flags o.val s.p
  · rw [charge_cycleTime, setRegNZ_cycleTime, htime, readCost_readOperand]
  · exact hwrite.charge _ (by simp)

/-! ## Stores -/

/-- Settles O18: after the pointer reads, which leave the registers, P, the time and every byte, a store is one checked write
and a charge; by the region of EA the write stores the byte or nothing. -/
theorem storeResult : Obligations.StoreResult := by
  intro i s m r hm ho e
  have haddr := address_unchanged m s
  have hp : e.st.p = s.p := haddr .p (by decide)
  have htime : e.st.cycleTime = s.cycleTime := haddr .cycleTime (by decide)
  have hexec := (exec_store hm ho s).trans (congrArg Host.Outcome.next (store_eq r m s))
  refine ⟨_, hexec, (UnchangedBut.refl _ _).charge _ (by decide), ?_, ?_, fun hram => ?_, fun hrom a => ?_⟩
  · rw [charge_p, write_p, hp]
  · rw [charge_cycleTime, write_cycleTime, htime]
  · have hregion : regionOf e.ea ≠ .peripheral := by rw [hram]; decide
    refine ⟨?_, fun a ha => ?_⟩
    · rw [peek_charge, peek_write_address hregion, if_pos ⟨rfl, hram⟩]
    · rw [peek_charge, peek_write_address hregion, if_neg fun h => ha h.1]
  · have hregion : regionOf e.ea ≠ .peripheral ∧ regionOf e.ea ≠ .ram := by
      rcases hrom with h | h <;> rw [h] <;> decide
    rw [peek_charge, peek_write_address hregion.1, if_neg fun h => hregion.2 h.2]

end Sys2Proof
end

section
/-! PROOF. Arithmetic and compare (spec/43_arithmetic.md R220 to R230): the overflow bit as signed overflow, the binary and
decimal algorithms as numbers, what ADC and SBC leave behind given their ALU result, and compare. -/

namespace Sys2Proof.Machine

/-! ## The sign bit and the overflow bit as numbers -/

theorem msb_eq_bit7 (v : Byte) : v.msb = v.getLsbD 7 := BitVec.msb_eq_getLsbD_last v

theorem msb_eq_decide_toNat (v : Byte) : v.msb = decide (128 ≤ v.toNat) := BitVec.msb_eq_decide v

theorem toInt_eq_ite_toNat (v : Byte) : v.toInt = if 128 ≤ v.toNat then (v.toNat : Int) - 256 else v.toNat := by
  rw [BitVec.toInt_eq_msb_cond, msb_eq_decide_toNat]
  simp

theorem addOverflow_iff (a m res : Byte) :
    addOverflow a m res = true ↔ (128 ≤ a.toNat ↔ 128 ≤ m.toNat) ∧ ¬(128 ≤ a.toNat ↔ 128 ≤ res.toNat) := by
  rw [addOverflow, BitVec.msb_and, BitVec.msb_not, BitVec.msb_xor, BitVec.msb_xor]
  simp [msb_eq_decide_toNat]

theorem subOverflow_iff (a m res : Byte) :
    subOverflow a m res = true ↔ ¬(128 ≤ a.toNat ↔ 128 ≤ m.toNat) ∧ ¬(128 ≤ a.toNat ↔ 128 ≤ res.toNat) := by
  rw [subOverflow, BitVec.msb_and, BitVec.msb_xor, BitVec.msb_xor]
  simp [msb_eq_decide_toNat]

/-- The overflow bit of R221 is the signed overflow, with either carry. -/
theorem addOverflow_eq_signed {a m res : Byte} {c : Nat} (hc : c ≤ 1)
    (hres : res.toNat = (a.toNat + m.toNat + c) % 256) :
    addOverflow a m res = decide (a.toInt + m.toInt + c < -128 ∨ 127 < a.toInt + m.toInt + c) := by
  have ha := a.isLt
  have hm := m.isLt
  rw [Bool.eq_iff_iff, addOverflow_iff, decide_eq_true_iff, toInt_eq_ite_toNat a, toInt_eq_ite_toNat m]
  omega

/-- The overflow bit of R224 is the signed overflow, with either borrow. -/
theorem subOverflow_eq_signed {a m res : Byte} {b : Int} (hb : 0 ≤ b ∧ b ≤ 1)
    (hres : (res.toNat : Int) = (a.toNat - m.toNat - b) % 256) :
    subOverflow a m res = decide (a.toInt - m.toInt - b < -128 ∨ 127 < a.toInt - m.toInt - b) := by
  have ha := a.isLt
  have hm := m.isLt
  rw [Bool.eq_iff_iff, subOverflow_iff, decide_eq_true_iff, toInt_eq_ite_toNat a, toInt_eq_ite_toNat m]
  omega

theorem ofInt_toNat (d : Int) : ((BitVec.ofInt 8 d).toNat : Int) = d % 256 := by
  rw [BitVec.toNat_ofInt]
  exact Int.toNat_of_nonneg (Int.emod_nonneg d (by decide))

theorem beq_zero_eq_decide (v : Byte) : (v == 0) = decide (v.toNat = 0) := by
  rw [Bool.eq_iff_iff, beq_iff_eq, decide_eq_true_iff, BitVec.toNat_eq]
  rfl

/-! ## The binary algorithms -/

theorem adcBinary_val (a m : Byte) (c : Bool) : (adcBinary a m c).val.toNat = (a.toNat + m.toNat + c.toNat) % 256 :=
  BitVec.toNat_ofNat _ _

theorem adcBinary_v (a m : Byte) (c : Bool) :
    (adcBinary a m c).v = decide (a.toInt + m.toInt + c.toNat < -128 ∨ 127 < a.toInt + m.toInt + c.toNat) :=
  addOverflow_eq_signed c.toNat_le (adcBinary_val a m c)

theorem adcBinary_n (a m : Byte) (c : Bool) : (adcBinary a m c).n = (a.toNat + m.toNat + c.toNat).testBit 7 := by
  have hn : (adcBinary a m c).n = (adcBinary a m c).val.getLsbD 7 := msb_eq_bit7 _
  rw [hn, adcBinary, BitVec.getLsbD_ofNat]
  rfl

theorem adcBinary_z (a m : Byte) (c : Bool) :
    (adcBinary a m c).z = decide ((a.toNat + m.toNat + c.toNat) % 256 = 0) := by
  rw [← adcBinary_val]
  exact beq_zero_eq_decide _

theorem sbcBinary_val (a m : Byte) (c : Bool) :
    ((sbcBinary a m c).val.toNat : Int) = ((a.toNat : Int) - m.toNat - (1 - c.toNat)) % 256 :=
  ofInt_toNat _

theorem sbcBinary_v (a m : Byte) (c : Bool) :
    (sbcBinary a m c).v =
      decide (a.toInt - m.toInt - (1 - c.toNat) < -128 ∨ 127 < a.toInt - m.toInt - (1 - c.toNat)) := by
  have hc := c.toNat_le
  exact subOverflow_eq_signed (by omega) (sbcBinary_val a m c)

theorem sbcBinary_n (a m : Byte) (c : Bool) :
    (sbcBinary a m c).n = decide (((a.toNat : Int) - m.toNat - (1 - c.toNat)) % 256 ≥ 128) := by
  rw [← sbcBinary_val]
  refine (msb_eq_decide_toNat _).trans (decide_eq_decide.2 ?_)
  exact Int.ofNat_le.symm

theorem sbcBinary_z (a m : Byte) (c : Bool) :
    (sbcBinary a m c).z = decide (((a.toNat : Int) - m.toNat - (1 - c.toNat)) % 256 = 0) := by
  rw [← sbcBinary_val]
  exact (beq_zero_eq_decide _).trans (decide_eq_decide.2 Int.natCast_eq_zero.symm)

/-! ## The decimal algorithms -/

/-- At the default DECIMAL_FLAGS the decimal addition corrects the value alone (R222). -/
theorem adc_decimal (a m : Byte) (c : Bool) :
    adc true a m c = { adcBinary a m c with val := (adc true a m c).val } := rfl

theorem adc_decimal_val (a m : Byte) (c : Bool) :
    (adc true a m c).val.toNat = decimalSum a.toNat m.toNat c.toNat :=
  BitVec.toNat_ofNat _ _

theorem toNat_sub_mod (v : Byte) : ((v.toNat - v.toNat % 16 : Nat) : Int) = (v.toNat : Int) - (v.toNat : Int) % 16 :=
  Int.natCast_sub (Nat.mod_le _ _)

theorem sbc_decimal_val (a m : Byte) (c : Bool) :
    ((sbc true a m c).val.toNat : Int) = decimalDifference a.toNat m.toNat c.toNat := by
  refine (ofInt_toNat _).trans ?_
  rw [toNat_sub_mod, toNat_sub_mod]
  rfl

/-- On decimal digits the steps of R222 give the digits of the decimal sum: the low digits' carry goes into the high ones. -/
theorem decimalSum_of_digits {h l h' l' c : Nat} (hh : h ≤ 9) (hl : l ≤ 9) (hh' : h' ≤ 9) (hl' : l' ≤ 9) (hc : c ≤ 1) :
    decimalSum (16 * h + l) (16 * h' + l') c =
      16 * ((10 * h + l + (10 * h' + l') + c) / 10 % 10) + (10 * h + l + (10 * h' + l') + c) % 10 := by
  have hlow : (16 * h + l) % 16 = l := by omega
  have hlow' : (16 * h' + l') % 16 = l' := by omega
  have htens : (10 * h + l + (10 * h' + l') + c) / 10 = h + h' + (l + l' + c) / 10 := by omega
  have hones : (10 * h + l + (10 * h' + l') + c) % 10 = (l + l' + c) % 10 := by omega
  unfold decimalSum
  dsimp only
  rw [htens, hones, hlow, hlow', Nat.add_sub_cancel, Nat.add_sub_cancel]
  split <;> split <;> omega

/-- On decimal digits the steps of R225 give the digits of the decimal difference: the low digits' borrow comes from the high
ones. -/
theorem decimalDifference_of_digits {h l h' l' c : Nat} (hh : h ≤ 9) (hl : l ≤ 9) (hh' : h' ≤ 9) (hl' : l' ≤ 9)
    (hc : c ≤ 1) :
    decimalDifference (16 * h + l : Nat) (16 * h' + l' : Nat) c =
      16 * (((10 * h + l : Nat) - (10 * h' + l' : Nat) - (1 - c) : Int) / 10 % 10) +
        ((10 * h + l : Nat) - (10 * h' + l' : Nat) - (1 - c) : Int) % 10 := by
  have hlow : ((16 * h + l : Nat) : Int) % 16 = l := by omega
  have hlow' : ((16 * h' + l' : Nat) : Int) % 16 = l' := by omega
  have htens : ((10 * h + l : Nat) - (10 * h' + l' : Nat) - (1 - c) : Int) / 10 =
      h - h' + ((l : Int) - l' + c - 1) / 10 := by omega
  have hones : ((10 * h + l : Nat) - (10 * h' + l' : Nat) - (1 - c) : Int) % 10 = ((l : Int) - l' + c - 1) % 10 := by omega
  unfold decimalDifference
  dsimp only
  rw [htens, hones, hlow, hlow']
  split <;> split <;> omega

/-- The digits of a byte that has decimal ones, and the number they stand for. -/
theorem validBcd_digits {v : Byte} (hv : ValidBcd v) :
    ∃ h l : Nat, h ≤ 9 ∧ l ≤ 9 ∧ v.toNat = 16 * h + l ∧ bcdValue v = 10 * h + l := by
  obtain ⟨hh, hl⟩ := hv
  exact ⟨v.toNat / 16, v.toNat % 16, hh, hl, (Nat.div_add_mod _ 16).symm, by rw [bcdValue, Nat.mul_comm]⟩

/-- A byte that holds the two last digits of a number stands for that number modulo 100. -/
theorem bcdValue_of_lastDigits {v : Byte} {x : Int} (hv : (v.toNat : Int) = 16 * (x / 10 % 10) + x % 10) :
    ValidBcd v ∧ (bcdValue v : Int) = x % 100 := by
  unfold ValidBcd bcdValue
  omega

/-- Settles O23: the corrections give the two last digits of the decimal sum and difference. -/
theorem decimalArithmeticIsDecimal : Obligations.DecimalArithmeticIsDecimal := by
  intro a m c ha hm
  obtain ⟨h, l, hh, hl, hav, ha⟩ := validBcd_digits ha
  obtain ⟨h', l', hh', hl', hmv, hm⟩ := validBcd_digits hm
  have hsum := adc_decimal_val a m c
  rw [hav, hmv, decimalSum_of_digits hh hl hh' hl' c.toNat_le, ← ha, ← hm] at hsum
  have hdiff := sbc_decimal_val a m c
  rw [hav, hmv, decimalDifference_of_digits hh hl hh' hl' c.toNat_le, ← ha, ← hm] at hdiff
  obtain ⟨hsumValid, hsumValue⟩ :=
    bcdValue_of_lastDigits (x := (bcdValue a + bcdValue m + c.toNat : Nat)) (by exact_mod_cast hsum)
  obtain ⟨hdiffValid, hdiffValue⟩ := bcdValue_of_lastDigits hdiff
  exact ⟨hsumValid, Int.ofNat_inj.1 hsumValue, hdiffValid, hdiffValue⟩

/-! ## The operand read leaves the registers, P and the time -/

theorem readOperand_p (x : Source) (s : State) : (readOperand x s).st.p = s.p := readOperand_unchanged x s .p (by decide)

theorem readOperand_cycleTime (x : Source) (s : State) : (readOperand x s).st.cycleTime = s.cycleTime :=
  readOperand_unchanged x s .cycleTime (by decide)

theorem getReg_readOperand (r : Reg) (x : Source) (s : State) : getReg r (readOperand x s).st = getReg r s := by
  have hread := readOperand_unchanged x s
  cases r with
  | a => exact hread .a (by decide)
  | x => exact hread .x (by decide)
  | y => exact hread .y (by decide)

theorem readOperand_a (x : Source) (s : State) : (readOperand x s).st.a = s.a := getReg_readOperand .a x s

/-! ## ADC and SBC -/

/-- What ADC and SBC leave behind with the ALU result `r` (R220, R223): its value in A, its four flags, the charge, and of the
rest what the operand read left. -/
structure Accumulated (x : Source) (s : State) (r : AluResult) (t : State) : Prop where
  a : t.a = r.val
  n : getFlag t.p .n = r.n
  v : getFlag t.p .v = r.v
  z : getFlag t.p .z = r.z
  c : getFlag t.p .c = r.c
  flags : FlagsUnchangedBut [.n, .v, .z, .c] s.p t.p
  time : t.cycleTime = s.cycleTime + modeCycles x (readOperand x s).crossed
  rest : UnchangedBut [.a, .p, .cycleTime] (readOperand x s).st t

/-- The result's flags are put into P as it was before the operand read. -/
theorem accumulated_of_result (x : Source) (s : State) (r : AluResult) :
    Accumulated x s r (charge (readCost (modeCycles x false) (readOperand x s).crossed)
      (((readOperand x s).st.setA r.val).setP (r.flags s.p))) where
  a := rfl
  n := getFlag_aluFlags r s.p .n
  v := getFlag_aluFlags r s.p .v
  z := getFlag_aluFlags r s.p .z
  c := getFlag_aluFlags r s.p .c
  flags := aluFlags_flags r s.p
  time := by
    rw [charge_cycleTime, State.setP_cycleTime, State.setA_cycleTime, readOperand_cycleTime, readCost_readOperand]
  rest := (((UnchangedBut.refl _ _).setReg .a r.val (by decide)).setP _ (by decide)).charge _ (by decide)

theorem addWithCarry_accumulated (x : Source) (s : State) :
    Accumulated x s (adc (getFlag s.p .d) s.a (readOperand x s).val (getFlag s.p .c))
      (addWithCarry x (modeCycles x false) s) := by
  rw [addWithCarry, readOperand_p, readOperand_a]
  exact accumulated_of_result x s _

theorem subtractWithBorrow_accumulated (x : Source) (s : State) :
    Accumulated x s (sbc (getFlag s.p .d) s.a (readOperand x s).val (getFlag s.p .c))
      (subtractWithBorrow x (modeCycles x false) s) := by
  rw [subtractWithBorrow, readOperand_p, readOperand_a]
  exact accumulated_of_result x s _

/-- Settles O19: with D clear ADC accumulates the binary sum. -/
theorem adcBinaryResult : Obligations.AdcBinaryResult := by
  intro i s x hm ho hd o sum signed
  have h := addWithCarry_accumulated x s
  rw [hd] at h
  refine ⟨_, exec_adc hm ho s, ?_, h.c, h.v.trans (adcBinary_v ..), ?_, ?_, h.flags, h.time, h.rest⟩
  · rw [h.a]
    exact adcBinary_val ..
  · rw [h.a, h.n]
    exact msb_eq_bit7 _
  · rw [h.a, h.z]
    rfl

/-- Settles O20: with D set ADC accumulates the corrected sum under the flags of the binary sum. -/
theorem adcDecimalResult : Obligations.AdcDecimalResult := by
  intro i s x hm ho hd o sum signed
  have h := addWithCarry_accumulated x s
  rw [hd, adc_decimal] at h
  refine ⟨_, exec_adc hm ho s, ?_, h.c, h.v.trans (adcBinary_v ..), h.n.trans (adcBinary_n ..), h.z.trans (adcBinary_z ..),
    h.flags, h.time, h.rest⟩
  rw [h.a]
  exact adc_decimal_val ..

/-- Settles O21: with D clear SBC accumulates the binary difference. -/
theorem sbcBinaryResult : Obligations.SbcBinaryResult := by
  intro i s x hm ho hd o borrow diff signed
  have h := subtractWithBorrow_accumulated x s
  rw [hd] at h
  refine ⟨_, exec_sbc hm ho s, ?_, h.c, h.v.trans (sbcBinary_v ..), ?_, ?_, h.flags, h.time, h.rest⟩
  · rw [h.a]
    exact sbcBinary_val ..
  · rw [h.a, h.n]
    exact msb_eq_bit7 _
  · rw [h.a, h.z]
    rfl

/-- Settles O22: with D set SBC accumulates the corrected difference under the flags of the binary difference (R225). -/
theorem sbcDecimalResult : Obligations.SbcDecimalResult := by
  intro i s x hm ho hd o borrow diff signed
  have h := subtractWithBorrow_accumulated x s
  rw [hd] at h
  refine ⟨_, exec_sbc hm ho s, ?_, h.c, h.v.trans (sbcBinary_v ..), h.n.trans (sbcBinary_n ..), h.z.trans (sbcBinary_z ..),
    h.flags, h.time, h.rest⟩
  rw [h.a]
  exact sbc_decimal_val ..

/-! ## Compare, at the default COMPARE_WRITES_V -/

/-- The byte of a difference is the difference of the bytes (R227). -/
theorem ofInt_sub_toNat (r m : Byte) : BitVec.ofInt 8 ((r.toNat : Int) - m.toNat) = r - m := by
  have hr := r.isLt
  have hm := m.isLt
  have hval := ofInt_toNat ((r.toNat : Int) - m.toNat)
  rw [BitVec.toNat_eq, BitVec.toNat_sub]
  omega

theorem compareFlags_c (r m p : Byte) :
    getFlag (compareFlags compareWritesV r m p) .c = decide (m.toNat ≤ r.toNat) := by
  rw [getFlag_compareFlags]
  refine decide_eq_decide.2 ?_
  omega

theorem compareFlags_z (r m p : Byte) : getFlag (compareFlags compareWritesV r m p) .z = (r == m) := by
  rw [getFlag_compareFlags, Bool.eq_iff_iff]
  dsimp only
  rw [ofInt_sub_toNat]
  simp [BitVec.sub_eq_iff_eq_add]

theorem compareFlags_n (r m p : Byte) : getFlag (compareFlags compareWritesV r m p) .n = (r - m).getLsbD 7 := by
  rw [getFlag_compareFlags, ← ofInt_sub_toNat]
  exact msb_eq_bit7 _

theorem compareFlags_v (r m p : Byte) :
    getFlag (compareFlags compareWritesV r m p) .v = decide (r.toInt - m.toInt < -128 ∨ 127 < r.toInt - m.toInt) := by
  have hsigned := subOverflow_eq_signed (a := r) (m := m) (b := 0) (by decide) (by rw [Int.sub_zero]; exact ofInt_toNat _)
  rw [Int.sub_zero] at hsigned
  rw [getFlag_compareFlags]
  exact hsigned

/-- Settles O24: a compare writes four flags of P as it was before the operand read, and is charged. -/
theorem compareResult : Obligations.CompareResult := by
  intro i s x r hm ho o signed
  have hflags : (compare r x (modeCycles x false) s).p = compareFlags compareWritesV (getReg r s) o.val s.p := by
    rw [compare, charge_p, State.setP_p, getReg_readOperand, readOperand_p]
  refine ⟨_, exec_compare hm ho s, ?_, ?_, ?_, ?_, ?_, ?_, ?_⟩
  · rw [hflags, compareFlags_c]
  · rw [hflags, compareFlags_z]
  · rw [hflags, compareFlags_n]
  · rw [hflags, compareFlags_v]
  · rw [hflags]
    exact compareFlags_flags _ _ _
  · rw [compare, charge_cycleTime, State.setP_cycleTime, readOperand_cycleTime, readCost_readOperand]
  · exact ((UnchangedBut.refl _ _).setP _ (by decide)).charge _ (by decide)

end Sys2Proof.Machine
end

section
/-! PROOF. Logical operations (spec/44_logic.md R250 to R253): AND, ORA and EOR as one operation bit by bit, what that operation
and BIT leave behind. -/

namespace Sys2Proof.Machine

/-! ## AND, ORA, EOR -/

/-- `f` is the bitwise operation of the mnemonic `n` on bytes (R250 to R252). -/
def IsBitwise (n : Mnemonic) (f : Byte → Byte → Byte) : Prop :=
  ∀ (a m : Byte) (k : Nat), k < 8 → (f a m).getLsbD k = logicBit n (a.getLsbD k) (m.getLsbD k)

theorem isBitwise_and : IsBitwise .and (· &&& ·) := fun _ _ _ _ => BitVec.getLsbD_and

theorem isBitwise_ora : IsBitwise .ora (· ||| ·) := fun _ _ _ _ => BitVec.getLsbD_or

theorem isBitwise_eor : IsBitwise .eor (· ^^^ ·) := fun _ _ _ _ => BitVec.getLsbD_xor

/-- The three instructions run one operation, each with its own bitwise function. -/
theorem exec_logical {i : Instr} {x : Source} (hm : i.mnemonic ∈ [.and, .ora, .eor]) (ho : i.operand = .source x)
    (s : State) : ∃ f, IsBitwise i.mnemonic f ∧ exec i s = .next (logical f x (modeCycles x false) s) := by
  simp only [List.mem_cons, List.not_mem_nil, or_false] at hm
  obtain hm | hm | hm := hm
  · exact ⟨_, hm ▸ isBitwise_and, exec_and hm ho s⟩
  · exact ⟨_, hm ▸ isBitwise_ora, exec_ora hm ho s⟩
  · exact ⟨_, hm ▸ isBitwise_eor, exec_eor hm ho s⟩

section
variable (f : Byte → Byte → Byte) (x : Source) (base : Nat) (s : State)

theorem logical_a : (logical f x base s).a = f s.a (readOperand x s).val := by
  have hwrite : (logical f x base s).a = f (readOperand x s).st.a (readOperand x s).val := rfl
  rw [hwrite, readOperand_a]

/-- N and Z are those of the new A, put into P as it was before the operand read. -/
theorem logical_p : (logical f x base s).p = setNZ (logical f x base s).a s.p := by
  rw [logical_a, logical, charge_p, setRegNZ_p, readOperand_p, readOperand_a]

theorem logical_cycleTime :
    (logical f x base s).cycleTime = s.cycleTime + readCost base (readOperand x s).crossed := by
  rw [logical, charge_cycleTime, setRegNZ_cycleTime, readOperand_cycleTime]

theorem logical_unchanged : UnchangedBut [.a, .p, .cycleTime] (readOperand x s).st (logical f x base s) :=
  ((setRegNZ_unchanged .a _ _).mono (by decide)).charge _ (by decide)

end

/-- Settles O25: after the operand read, a logical instruction writes A bit by bit, N and Z, and is charged. -/
theorem logicResult : Obligations.LogicResult := by
  intro i s x hm ho o
  obtain ⟨f, hbits, hexec⟩ := exec_logical hm ho s
  refine ⟨_, hexec, fun k hk => ?_, ?_, ?_, ?_, ?_, logical_unchanged f x _ s⟩
  · rw [logical_a]
    exact hbits s.a o.val k hk
  · rw [logical_p, getFlag_setNZ_n]
  · rw [logical_p, getFlag_setNZ_z]
  · rw [logical_p]
    exact setNZ_flags _ s.p
  · rw [logical_cycleTime, readCost_readOperand]

/-! ## BIT -/

/-- Neither mode of BIT, zero page and absolute, has a page penalty. -/
theorem modeCycles_bit {i : Instr} {x : Source} (hm : i.mnemonic = .bit) (ho : i.operand = .source x) (crossed : Bool) :
    modeCycles x crossed = modeCycles x false := by
  cases i <;> first
    | (cases hm; done)
    | (cases ho; rfl)

/-- BIT writes three flags of P as it was before the operand read, against A as it was. -/
theorem bitTest_p (x : Source) (base : Nat) (s : State) :
    (bitTest x base s).p = bitFlags s.a (readOperand x s).val s.p := by
  rw [bitTest, charge_p, State.setP_p, readOperand_a, readOperand_p]

theorem bitTest_cycleTime (x : Source) (base : Nat) (s : State) :
    (bitTest x base s).cycleTime = s.cycleTime + readCost base (readOperand x s).crossed := by
  rw [bitTest, charge_cycleTime, State.setP_cycleTime, readOperand_cycleTime]

theorem bitTest_unchanged (x : Source) (base : Nat) (s : State) :
    UnchangedBut [.p, .cycleTime] (readOperand x s).st (bitTest x base s) :=
  ((UnchangedBut.refl _ _).setP _ (by decide)).charge _ (by decide)

/-- Settles O26: after the operand read, BIT writes its three flags and is charged. -/
theorem bitResult : Obligations.BitResult := by
  intro i s x hm ho o
  refine ⟨_, exec_bit hm ho s, ?_, ?_, ?_, ?_, ?_, bitTest_unchanged x _ s⟩
  · rw [bitTest_p]
    exact getFlag_bitFlags s.a o.val s.p .n
  · rw [bitTest_p]
    exact getFlag_bitFlags s.a o.val s.p .v
  · rw [bitTest_p]
    exact getFlag_bitFlags s.a o.val s.p .z
  · rw [bitTest_p]
    exact bitFlags_flags s.a o.val s.p
  · rw [bitTest_cycleTime, readCost_readOperand, modeCycles_bit hm ho]

end Sys2Proof.Machine
end

section
/-! PROOF. Shifts, rotates, increments and decrements of memory (spec/45_shift_incdec.md R270 to R276): the byte function of each
mnemonic against `modified`, the flags it leaves behind, and what the read and the write of EA do to memory. -/

namespace Sys2Proof.Machine

/-! ## Writing a clear bit -/

theorem putBit_false_of_clear {v : Byte} {k : Nat} (hk : k < 8) (hv : v.getLsbD k = false) : putBit v k false = v := by
  refine BitVec.eq_of_getLsbD_eq fun j _ => ?_
  rw [putBit_getLsbD _ _ _ _ hk]
  split
  · next h => rw [h, hv]
  · rfl

/-- Setting a clear bit is adding its power of two. -/
theorem putBit_true_of_clear {v : Byte} {k : Nat} (hv : v.getLsbD k = false) :
    putBit v k true = v + BitVec.twoPow 8 k := by
  have hdisjoint : v &&& BitVec.twoPow 8 k = 0#8 := by rw [BitVec.and_twoPow, hv]; rfl
  exact (BitVec.add_eq_or_of_and_eq_zero v _ hdisjoint).symm

/-- ROL feeds the carry into the bit that its shift vacates (R273). -/
theorem rol_toNat (m : Byte) (c : Bool) : (putBit (m <<< 1) 0 c).toNat = (m.toNat * 2 + c.toNat) % 256 := by
  have hclear : (m <<< 1).getLsbD 0 = false := by simp
  have hshift : (m <<< 1).toNat = m.toNat * 2 % 256 := by rw [BitVec.toNat_shiftLeft, Nat.shiftLeft_eq]
  cases c with
  | false => rw [putBit_false_of_clear (by decide) hclear, hshift]; rfl
  | true =>
    rw [putBit_true_of_clear hclear, BitVec.toNat_add, hshift]
    simp

/-- ROR feeds the carry into the bit that its shift vacates (R274). -/
theorem ror_toNat (m : Byte) (c : Bool) : (putBit (m >>> 1) 7 c).toNat = m.toNat / 2 + 128 * c.toNat := by
  have hclear : (m >>> 1).getLsbD 7 = false := by simp
  have hshift : (m >>> 1).toNat = m.toNat / 2 := by rw [BitVec.toNat_ushiftRight, Nat.shiftRight_eq_div_pow]
  cases c with
  | false => rw [putBit_false_of_clear (by decide) hclear, hshift]; rfl
  | true =>
    have hm := m.isLt
    have hbit : (BitVec.twoPow 8 7).toNat = 128 := by decide
    rw [putBit_true_of_clear hclear, BitVec.toNat_add, hshift, hbit, Bool.toNat_true]
    omega

/-! ## The six functions -/

/-- `f` is the function of the mnemonic `n`: it gives the result, and P with C written where the rule writes it (R271 to
R276). -/
structure Modifies (n : Mnemonic) (f : Byte → Byte → Byte × Byte) : Prop where
  result (m p : Byte) : (f m p).1.toNat = (modified n m (getFlag p .c)).1
  carry (m p : Byte) : getFlag (f m p).2 .c = (modified n m (getFlag p .c)).2.getD (getFlag p .c)
  flags (m p : Byte) : FlagsUnchangedBut [.c] p (f m p).2

theorem modifies_asl : Modifies .asl aslFn where
  result m _ := by
    rw [aslFn, BitVec.toNat_shiftLeft, Nat.shiftLeft_eq]
    rfl
  carry _ p := getFlag_putFlag_self p .c _
  flags _ p := putFlag_flags p .c _

theorem modifies_lsr : Modifies .lsr lsrFn where
  result m _ := BitVec.toNat_ushiftRight m 1
  carry _ p := getFlag_putFlag_self p .c _
  flags _ p := putFlag_flags p .c _

theorem modifies_rol : Modifies .rol rolFn where
  result m p := rol_toNat m (getFlag p .c)
  carry _ p := getFlag_putFlag_self p .c _
  flags _ p := putFlag_flags p .c _

theorem modifies_ror : Modifies .ror rorFn where
  result m p := ror_toNat m (getFlag p .c)
  carry _ p := getFlag_putFlag_self p .c _
  flags _ p := putFlag_flags p .c _

theorem modifies_inc : Modifies .inc incFn where
  result m _ := BitVec.toNat_add m 1
  carry _ _ := rfl
  flags _ p := FlagsUnchangedBut.refl _ p

theorem modifies_dec : Modifies .dec decFn where
  result m _ := by
    rw [decFn, BitVec.toNat_sub, Nat.add_comm]
    rfl
  carry _ _ := rfl
  flags _ p := FlagsUnchangedBut.refl _ p

/-- The memory forms run one operation, each with the function of its mnemonic. -/
theorem exec_modifyMemory {i : Instr} {m : AddrMode} (hm : i.mnemonic ∈ [.asl, .lsr, .rol, .ror, .inc, .dec])
    (ho : i.operand = .source (.mem m)) (s : State) :
    ∃ f, Modifies i.mnemonic f ∧ exec i s = .next (readModifyWrite f m (rmwCycles m) s) := by
  simp only [List.mem_cons, List.not_mem_nil, or_false] at hm
  obtain hm | hm | hm | hm | hm | hm := hm
  · exact ⟨aslFn, hm ▸ modifies_asl, exec_readModifyWrite (by simp [hm]) ho s⟩
  · exact ⟨lsrFn, hm ▸ modifies_lsr, exec_readModifyWrite (by simp [hm]) ho s⟩
  · exact ⟨rolFn, hm ▸ modifies_rol, exec_readModifyWrite (by simp [hm]) ho s⟩
  · exact ⟨rorFn, hm ▸ modifies_ror, exec_readModifyWrite (by simp [hm]) ho s⟩
  · exact ⟨incFn, hm ▸ modifies_inc, exec_readModifyWrite (by simp [hm]) ho s⟩
  · exact ⟨decFn, hm ▸ modifies_dec, exec_readModifyWrite (by simp [hm]) ho s⟩

/-- The accumulator forms run one operation, each with the function of its mnemonic, and all of them write C. -/
theorem exec_modifyAccumulator {i : Instr} (hi : i ∈ [.aslAcc, .lsrAcc, .rolAcc, .rorAcc]) (s : State) :
    ∃ f, Modifies i.mnemonic f ∧ (∀ m c, ∃ b, (modified i.mnemonic m c).2 = some b) ∧
      exec i s = .next (modifyAccumulator f 2 s) := by
  simp only [List.mem_cons, List.not_mem_nil, or_false] at hi
  obtain rfl | rfl | rfl | rfl := hi
  · exact ⟨aslFn, modifies_asl, fun _ _ => ⟨_, rfl⟩, rfl⟩
  · exact ⟨lsrFn, modifies_lsr, fun _ _ => ⟨_, rfl⟩, rfl⟩
  · exact ⟨rolFn, modifies_rol, fun _ _ => ⟨_, rfl⟩, rfl⟩
  · exact ⟨rorFn, modifies_ror, fun _ _ => ⟨_, rfl⟩, rfl⟩

/-! ## The flags of a result -/

/-- The flags `q` that a modifying instruction with outcome `out` makes of `p`: N and Z of the result, C where it is written. -/
structure ModifiedFlags (out : Nat × Option Bool) (p q : Byte) : Prop where
  n : getFlag q .n = out.1.testBit 7
  z : getFlag q .z = decide (out.1 = 0)
  c : getFlag q .c = out.2.getD (getFlag p .c)
  others : FlagsUnchangedBut [.n, .z, .c] p q

/-- C is written by the function, then N and Z by SetNZ of its result (R270). -/
theorem Modifies.modifiedFlags {n : Mnemonic} {f : Byte → Byte → Byte × Byte} (h : Modifies n f) (m p : Byte) :
    ModifiedFlags (modified n m (getFlag p .c)) p (setNZ (f m p).1 (f m p).2) where
  n := by
    rw [getFlag_setNZ_n, ← h.result]
    rfl
  z := by rw [getFlag_setNZ_z, beq_zero_eq_decide, h.result]
  c := by
    rw [setNZ_flags _ _ .c (by decide)]
    exact h.carry m p
  others g hg := by
    simp only [List.mem_cons, List.not_mem_nil, or_false, not_or] at hg
    obtain ⟨hn, hz, hc⟩ := hg
    rw [setNZ_flags _ _ g (by simp [hn, hz])]
    exact h.flags m p g (by simp [hc])

/-! ## The accumulator forms -/

theorem modifyAccumulator_p (f : Byte → Byte → Byte × Byte) (cost : Nat) (s : State) :
    (modifyAccumulator f cost s).p = setNZ (f s.a s.p).1 (f s.a s.p).2 := by
  rw [modifyAccumulator, charge_p, setRegNZ_p, State.setP_p]

theorem modifyAccumulator_unchanged (f : Byte → Byte → Byte × Byte) (cost : Nat) (s : State) :
    UnchangedBut [.a, .p, .cycleTime] s (modifyAccumulator f cost s) :=
  ((((UnchangedBut.refl _ s).setP _ (by decide)).setReg .a _ (by decide)).setP _ (by decide)).charge _ (by decide)

/-- Settles O28: A is the function's result, P its flags. -/
theorem accumulatorShiftResult : Obligations.AccumulatorShiftResult := by
  intro i s hi out
  obtain ⟨f, hf, hcarry, hexec⟩ := exec_modifyAccumulator hi s
  have hflags := hf.modifiedFlags s.a s.p
  rw [← modifyAccumulator_p f 2 s] at hflags
  obtain ⟨b, hb⟩ := hcarry s.a (getFlag s.p .c)
  refine ⟨_, hexec, hf.result s.a s.p, hflags.n, hflags.z, ?_, hflags.others, rfl, modifyAccumulator_unchanged f 2 s⟩
  rw [hflags.c, hb, Option.getD_some]

/-! ## The memory forms -/

/-- A read-modify-write is one read of EA and one write of the result there; P, which no access touches, is written once, and
then comes the charge (R270). -/
theorem readModifyWrite_eq (f : Byte → Byte → Byte × Byte) (m : AddrMode) (cost : Nat) (s : State) :
    readModifyWrite f m cost s =
      let o := f (readOperand (.mem m) s).val s.p
      charge cost ((write (address m s).ea o.1 (readOperand (.mem m) s).st).setP (setNZ o.1 o.2)) := by
  have hp : (read (address m s).ea (address m s).st).2.p = s.p := readOperand_p (.mem m) s
  rw [readModifyWrite]
  dsimp only
  rw [hp, write_setP]
  rfl

/-- What every address reads as after a read and a write at an EA outside the peripheral window. -/
theorem peek_write_readOperand {m : AddrMode} {s : State} (h : regionOf (address m s).ea ≠ .peripheral) (v : Byte) (a : Word) :
    peek (write (address m s).ea v (readOperand (.mem m) s).st) a =
      if a = (address m s).ea ∧ regionOf (address m s).ea = .ram then v else peek s a := by
  have hquiet : UnchangedBut [.bpHit] s (readOperand (.mem m) s).st :=
    readOperand_quiet (.mem m) s fun _ hm => by cases hm; exact h
  rw [peek_write_of_region h, peek_of_unchanged hquiet (by decide)]

/-- A write that stores its byte in RAM alone, by the region of its address: RAM holds the byte and nothing else changed, ROM
is as it was. -/
theorem stored_or_discarded {ea : Word} {v : Byte} {s t : State}
    (h : regionOf ea ≠ .peripheral → ∀ a, peek t a = if a = ea ∧ regionOf ea = .ram then v else peek s a) :
    (regionOf ea = .ram → peek t ea = v ∧ ∀ a, a ≠ ea → peek t a = peek s a) ∧
      (regionOf ea = .pagedRom ∨ regionOf ea = .osRom → ∀ a, peek t a = peek s a) := by
  refine ⟨fun hram => ?_, fun hrom a => ?_⟩
  · have hbytes := h (by rw [hram]; decide)
    refine ⟨?_, fun a ha => ?_⟩
    · rw [hbytes, if_pos ⟨rfl, hram⟩]
    · rw [hbytes, if_neg fun hea => ha hea.1]
  · have hregion : regionOf ea ≠ .peripheral ∧ regionOf ea ≠ .ram := by
      rcases hrom with hr | hr <;> rw [hr] <;> decide
    rw [h hregion.1, if_neg fun hea => hregion.2 hea.2]

/-- Settles O27: the result of the function is written at EA, and P and the time are all that changes after the write. -/
theorem readModifyWriteResult : Obligations.ReadModifyWriteResult := by
  intro i s m hm ho e r out
  obtain ⟨f, hf, hexec⟩ := exec_modifyMemory hm ho s
  rw [readModifyWrite_eq] at hexec
  have hresult : (f r.1 s.p).1 = BitVec.ofNat 8 out.1 := by
    rw [← hf.result r.1 s.p, BitVec.ofNat_toNat, BitVec.setWidth_eq]
  have hflags := hf.modifiedFlags r.1 s.p
  refine ⟨_, hexec, ?_, hflags.n, hflags.z, hflags.c, hflags.others, ?_, stored_or_discarded fun h a => ?_⟩
  · rw [← hresult]
    exact ((UnchangedBut.refl _ _).setP _ (by decide)).charge _ (by decide)
  · rw [charge_cycleTime, State.setP_cycleTime, write_cycleTime, readOperand_cycleTime]
  · rw [← hresult]
    exact peek_write_readOperand h _ a

end Sys2Proof.Machine
end

section
/-! PROOF. Register transfers, register increments, flag instructions, NOP (spec/46_register_flag.md R290 to R307): each is one
update of a register, of S or of one flag, and the charge of 2 cycles. -/

namespace Sys2Proof.Machine

/-! ## Registers -/

theorem getFlag_setNZ_n_toNat (v p : Byte) : getFlag (setNZ v p) .n = decide (v.toNat ≥ 128) :=
  (getFlag_setNZ v p .n).trans (msb_eq_decide_toNat v)

theorem getFlag_setNZ_z_toNat (v p : Byte) : getFlag (setNZ v p) .z = decide (v.toNat = 0) :=
  (getFlag_setNZ_z v p).trans (beq_zero_eq_decide v)

/-- DEX and DEY subtract as DEC does in memory. -/
theorem sub_one_toNat (v : Byte) : (v - 1).toNat = (v.toNat + 255) % 256 := modifies_dec.result v 0

/-- The nine instructions run one operation, with the byte whose number `registerResult` gives. -/
theorem exec_setRegister {i : Instr} {s : State} {r : Reg} {v : Nat} (h : registerResult i s = some (r, v)) :
    ∃ w : Byte, w.toNat = v ∧ exec i s = .next (charge 2 (setRegNZ r w s)) := by
  cases i with cases h
  | tax | tay | txa | tya | tsx => exact ⟨_, rfl, rfl⟩
  | inx => exact ⟨s.x + 1, BitVec.toNat_add s.x 1, rfl⟩
  | iny => exact ⟨s.y + 1, BitVec.toNat_add s.y 1, rfl⟩
  | dex => exact ⟨s.x - 1, sub_one_toNat s.x, rfl⟩
  | dey => exact ⟨s.y - 1, sub_one_toNat s.y, rfl⟩

/-- Settles O29: the register has the value and P its N and Z; no byte depends on a register, P or the time. -/
theorem registerInstructionResult : Obligations.RegisterInstructionResult := by
  intro i s r v h
  obtain ⟨w, rfl, hexec⟩ := exec_setRegister h
  have hp : (charge 2 (setRegNZ r w s)).p = setNZ w s.p := by rw [charge_p, setRegNZ_p]
  have hframe : UnchangedBut [r.field, .p, .cycleTime] s (charge 2 (setRegNZ r w s)) :=
    ((setRegNZ_unchanged r w s).mono (by simp)).charge 2 (by simp)
  refine ⟨_, hexec, ?_, ?_, ?_, ?_, ?_, hframe, fun a => peek_of_unchanged hframe (by cases r <;> decide) a⟩
  · rw [getReg_charge, getReg_setRegNZ]
  · rw [hp, getFlag_setNZ_n_toNat]
  · rw [hp, getFlag_setNZ_z_toNat]
  · rw [hp]
    exact setNZ_flags w s.p
  · rw [charge_cycleTime, setRegNZ_cycleTime]

/-! ## Flags -/

/-- Settles O31: P is as it was but for the one flag; no byte depends on P or the time. -/
theorem flagInstructionResult : Obligations.FlagInstructionResult := by
  intro i f b s h
  have hexec : exec i s = .next (charge 2 (s.setP (putFlag s.p f b))) := by
    simp only [List.mem_cons, Prod.mk.injEq, List.not_mem_nil, or_false] at h
    obtain ⟨rfl, rfl, rfl⟩ | ⟨rfl, rfl, rfl⟩ | ⟨rfl, rfl, rfl⟩ | ⟨rfl, rfl, rfl⟩ | ⟨rfl, rfl, rfl⟩ | ⟨rfl, rfl, rfl⟩ |
      ⟨rfl, rfl, rfl⟩ := h <;> rfl
  have hframe : UnchangedBut [.p, .cycleTime] s (charge 2 (s.setP (putFlag s.p f b))) :=
    ((UnchangedBut.refl _ s).setP _ (by decide)).charge 2 (by decide)
  exact ⟨_, hexec, getFlag_putFlag_self s.p f b, putFlag_flags s.p f b, rfl, hframe, peek_of_unchanged hframe (by decide)⟩

/-! ## TXS and NOP -/

theorem setSp_unchanged (s : State) (v : Byte) : UnchangedBut [.sp] s (s.setSp v) := by
  intro f hf
  cases f <;> simp [Same] at hf ⊢

/-- Settles O30: TXS writes S and is charged, NOP is only charged; no byte depends on S or the time. -/
theorem txsAndNopResult : Obligations.TxsAndNopResult := by
  intro s
  have htxs : UnchangedBut [.sp, .cycleTime] s (charge 2 (s.setSp s.x)) :=
    ((setSp_unchanged s s.x).mono (by decide)).charge 2 (by decide)
  have hnop : UnchangedBut [.cycleTime] s (charge 2 s) := (UnchangedBut.refl _ s).charge 2 (by decide)
  exact ⟨⟨_, rfl, rfl, rfl, htxs, peek_of_unchanged htxs (by decide)⟩,
    ⟨_, rfl, rfl, hnop, peek_of_unchanged hnop (by decide)⟩⟩

end Sys2Proof.Machine
end

section
/-! PROOF. The stack (spec/47_stack.md R320 to R325): one push and one pull, a list of pushes by induction, and the four
instructions, each one push or one pull and the charge. -/

namespace Sys2Proof.Machine

/-! ## Push and pull -/

/-- Settles O33: each part is a law of the one push or the one pull. -/
theorem stackPrimitives : Obligations.StackPrimitives := by
  intro v s
  refine ⟨stackAddr_toNat s.sp, ?_, ?_, fun a ha => ?_, push_unchanged v s, pull_val s, ?_, pull_unchanged s, peek_pull s⟩
  · rw [push_sp, sub_one_toNat]
  · rw [stackByte, peek_push, if_pos rfl]
  · rw [peek_push, if_neg ha]
  · rw [pull_sp, BitVec.toNat_add]
    rfl

/-! ## A list of pushes -/

theorem foldl_push_sp (vs : List Byte) (s : State) :
    (vs.foldl (fun u v => push v u) s).sp = s.sp - BitVec.ofNat 8 vs.length := by
  induction vs generalizing s with
  | nil => simp
  | cons v vs ih =>
    rw [List.foldl_cons, ih, push_sp, List.length_cons, Nat.add_comm, BitVec.ofNat_add, BitVec.sub_sub]
    rfl

/-- Wherever S points, a push writes in page 1 (10_state.md R31). -/
theorem peek_foldl_push {a : Word} (ha : ¬(0x0100 ≤ a.toNat ∧ a.toNat ≤ 0x01FF)) (vs : List Byte) (s : State) :
    peek (vs.foldl (fun u v => push v u) s) a = peek s a := by
  induction vs generalizing s with
  | nil => rfl
  | cons v vs ih =>
    have hne : a ≠ stackAddr s.sp := by
      rintro rfl
      have hsp := s.sp.isLt
      rw [stackAddr_toNat] at ha
      omega
    rw [List.foldl_cons, ih, peek_push, if_neg hne]

theorem foldl_push_unchanged (vs : List Byte) (s : State) :
    UnchangedBut [.sp, .ram, .bpHit] s (vs.foldl (fun u v => push v u) s) := by
  induction vs generalizing s with
  | nil => exact .refl _ s
  | cons v vs ih => exact ((push_unchanged v s).trans (ih _)).mono (by decide)

/-- A field that is as it was needs no place in the list. -/
theorem UnchangedBut.of_cons {f : Field} {fs : List Field} {s t : State} (h : UnchangedBut (f :: fs) s t)
    (hf : Same s t f) : UnchangedBut fs s t := by
  intro g hg
  by_cases hgf : g = f
  · exact hgf ▸ hf
  · exact h g (List.not_mem_cons_of_ne_of_not_mem hgf hg)

/-- Settles O34: 256 is 0 modulo 256, so S is back, and every single push stays in page 1. -/
theorem stackWrapsInPageOne : Obligations.StackWrapsInPageOne := by
  intro vs s hlen t
  have hsp : t.sp = s.sp := by
    rw [foldl_push_sp, hlen]
    exact BitVec.sub_zero s.sp
  exact ⟨hsp, fun a ha => peek_foldl_push ha vs s, (foldl_push_unchanged vs s).of_cons hsp⟩

/-! ## PHA, PHP, PLA, PLP -/

/-- PHA and PHP are one push of their byte and the charge (R322, R323). -/
theorem exec_push {i : Instr} {v : Byte} {s : State} (h : (i, v) ∈ [(Instr.pha, s.a), (.php, s.p ||| 0x30)]) :
    exec i s = .next (charge 3 (push v s)) := by
  simp only [List.mem_cons, Prod.mk.injEq, List.not_mem_nil, or_false] at h
  obtain ⟨rfl, rfl⟩ | ⟨rfl, rfl⟩ := h <;> rfl

theorem charge_push_unchanged (n : Nat) (v : Byte) (s : State) :
    UnchangedBut [.ram, .sp, .cycleTime, .bpHit] s (charge n (push v s)) :=
  ((push_unchanged v s).mono (by decide)).charge n (by decide)

/-- PLA: A and its flags after a pull (R324). -/
theorem setRegNZ_pull_unchanged (s : State) :
    UnchangedBut [.a, .p, .sp, .cycleTime, .bpHit] s (charge 4 (setRegNZ .a (pull s).1 (pull s).2)) :=
  (((pull_unchanged s).trans (setRegNZ_unchanged .a _ _)).mono (by decide)).charge 4 (by decide)

/-- PLP: P after a pull (R325). -/
theorem setP_pull_unchanged (s : State) :
    UnchangedBut [.p, .sp, .cycleTime, .bpHit] s (charge 4 ((pull s).2.setP (pull s).1)) :=
  (((pull_unchanged s).mono (by decide)).setP _ (by decide)).charge 4 (by decide)

theorem push_cycleTime (v : Byte) (s : State) : (push v s).cycleTime = s.cycleTime :=
  push_unchanged v s .cycleTime (by decide)

theorem pull_cycleTime (s : State) : (pull s).2.cycleTime = s.cycleTime := pull_unchanged s .cycleTime (by decide)

/-- Settles O35: the two pushes by the byte they store, the two pulls by the register they write. -/
theorem stackInstructionResult : Obligations.StackInstructionResult := by
  intro s
  have hpulled : (pull s).2.p = s.p := pull_unchanged s .p (by decide)
  refine ⟨fun i v h => ?_, ?_, ?_⟩
  · refine ⟨_, exec_push h, ?_, push_sp v s, ?_, charge_push_unchanged 3 v s, fun a ha => ?_⟩
    · rw [stackByte, peek_charge, peek_push, if_pos rfl]
    · rw [charge_cycleTime, push_cycleTime]
    · rw [peek_charge, peek_push, if_neg ha]
  · have hp : (charge 4 (setRegNZ .a (pull s).1 (pull s).2)).p = setNZ (pull s).1 s.p := by
      rw [charge_p, setRegNZ_p, hpulled]
    refine ⟨_, rfl, pull_val s, ?_, ?_, ?_, pull_sp s, ?_, setRegNZ_pull_unchanged s,
      peek_of_unchanged (setRegNZ_pull_unchanged s) (by decide)⟩
    · rw [hp]
      exact getFlag_setNZ_n _ _
    · rw [hp]
      exact getFlag_setNZ_z _ _
    · rw [hp]
      exact setNZ_flags _ s.p
    · rw [charge_cycleTime, setRegNZ_cycleTime, pull_cycleTime]
  · refine ⟨_, rfl, pull_val s, pull_sp s, ?_, setP_pull_unchanged s,
      peek_of_unchanged (setP_pull_unchanged s) (by decide)⟩
    rw [charge_cycleTime, State.setP_cycleTime, pull_cycleTime]

end Sys2Proof.Machine
end

section
/-! PROOF. Control flow (spec/48_control_flow.md R340 to R354): the target of a branch and of JMP indirect as numbers, what each
operation leaves behind, and the return from a subroutine and from an interrupt as the inverse of the entry. -/

namespace Sys2Proof.Machine

/-! ## Bookkeeping: PC, and a pair of reads -/

theorem setPc_unchanged (s : State) (w : Word) : UnchangedBut [.pc] s (s.setPc w) := by
  intro f hf
  cases f <;> simp [Same] at hf ⊢

theorem read_unchanged (a : Word) (s : State) : UnchangedBut [.bpHit, .intStatus, .irqPending] s (read a s).2 := by
  obtain ⟨-, hu, -⟩ := readSideEffects a s
  exact hu

theorem read_quiet {a : Word} (h : QuietRead a) (s : State) : UnchangedBut [.bpHit] s (read a s).2 := by
  rw [read_of_quiet h]
  exact setBpHit_unchanged s _

theorem hiByte_toNat (w : Word) : (hiByte w).toNat = w.toNat / 256 := by
  have hw := w.isLt
  simp only [hiByte, BitVec.extractLsb'_toNat, Nat.shiftRight_eq_div_pow]
  omega

/-! ## Branches -/

/-- The displacement is signed, and the sum wraps at 16 bits (41_addressing.md R182). -/
theorem branchTarget_toNat (next : Word) (d : Byte) :
    ((branchTarget next d).toNat : Int) = ((next.toNat : Int) + d.toInt) % 65536 := by
  have hd : (d.signExtend 16).toInt = d.toInt := BitVec.toInt_signExtend_of_le (by decide)
  have hmod := BitVec.toNat_add next (d.signExtend 16)
  have hsigned := BitVec.toInt_eq_toNat_cond (d.signExtend 16)
  rw [branchTarget, hmod, ← hd, hsigned]
  split <;> omega

/-- Two addresses are in one page where their high bytes are equal. -/
theorem hiByte_eq_iff (v w : Word) : hiByte v = hiByte w ↔ v.toNat / 256 = w.toNat / 256 := by
  rw [← hiByte_toNat, ← hiByte_toNat]
  exact ⟨congrArg _, BitVec.eq_of_toNat_eq⟩

theorem branch_of_taken {f : Flag} {b : Bool} {s : State} (d : Byte) (h : getFlag s.p f = b) :
    branch f b d s =
      charge (if hiByte (branchTarget s.pc d) = hiByte s.pc then 3 else 4) (s.setPc (branchTarget s.pc d)) := by
  simp only [branch, if_pos h]

theorem branch_of_notTaken {f : Flag} {b : Bool} {s : State} (d : Byte) (h : getFlag s.p f ≠ b) :
    branch f b d s = charge 2 s := by
  simp only [branch, if_neg h]

theorem branch_unchanged (f : Flag) (b : Bool) (d : Byte) (s : State) :
    UnchangedBut [.pc, .cycleTime] s (branch f b d s) := by
  by_cases h : getFlag s.p f = b
  · rw [branch_of_taken d h]
    exact ((setPc_unchanged s _).mono (by decide)).charge _ (by decide)
  · rw [branch_of_notTaken d h]
    exact (UnchangedBut.refl _ s).charge 2 (by decide)

/-- Settles O36: every branch runs the one operation with the flag and the polarity that its opcode's bits select. -/
theorem branchResult : Obligations.BranchResult := by
  intro i d s ho taken target
  have hframe := branch_unchanged (branchFlag i.opcode) (i.opcode.getLsbD 5) d s
  have htarget : ((branchTarget s.pc d).toNat : Int) = target := branchTarget_toNat s.pc d
  have hpage : hiByte (branchTarget s.pc d) = hiByte s.pc ↔ target / 256 = s.pc.toNat / 256 := by
    rw [hiByte_eq_iff]
    omega
  refine ⟨_, exec_branch ho s, fun h => ?_, fun h => ?_, hframe, peek_of_unchanged hframe (by decide)⟩
  · rw [branch_of_taken d h]
    refine ⟨htarget, ?_⟩
    simp only [charge_cycleTime, State.setPc_cycleTime, hpage]
  · rw [branch_of_notTaken d h]
    exact ⟨rfl, rfl⟩

/-! ## Jumps -/

/-- The pointer's second address, at the default JMP_INDIRECT_PAGE_WRAP (log 4): only its low byte counts on (R183). -/
theorem pointerHigh_wraps (w : Word) : pointerHigh jmpIndirectPageWrap w =
    BitVec.ofNat 16 (w.toNat / 256 * 256 + (w.toNat % 256 + 1) % 256) := by
  have hw := w.isLt
  apply BitVec.eq_of_toNat_eq
  have hdefault : pointerHigh jmpIndirectPageWrap w = wordOf (loByte w + 1) (hiByte w) := rfl
  have hlow : (loByte w + 1).toNat = (w.toNat % 256 + 1) % 256 := by
    rw [BitVec.toNat_add, loByte_toNat]
    rfl
  rw [hdefault, wordOf_toNat, hlow, hiByte_toNat, BitVec.toNat_ofNat]
  omega

theorem jumpIndirect_pc (w : Word) (cost : Nat) (s : State) : (jumpIndirect w cost s).pc =
    wordOf (peek s w) (peek (readEffect w s) (pointerHigh jmpIndirectPageWrap w)) := by
  simp [jumpIndirect, readTarget, readPair, read_eq]

theorem jumpIndirect_cycleTime (w : Word) (cost : Nat) (s : State) :
    (jumpIndirect w cost s).cycleTime = s.cycleTime + cost := by
  simp [jumpIndirect, readTarget]

theorem jumpIndirect_unchanged (w : Word) (cost : Nat) (s : State) :
    UnchangedBut [.pc, .cycleTime, .bpHit, .intStatus, .irqPending] s (jumpIndirect w cost s) :=
  ((((read_unchanged w s).trans (read_unchanged _ _)).trans (setPc_unchanged _ _)).mono (by decide)).charge cost (by decide)

theorem jumpIndirect_quiet {w : Word} (hl : QuietRead w) (hh : QuietRead (pointerHigh jmpIndirectPageWrap w)) (cost : Nat)
    (s : State) : UnchangedBut [.pc, .cycleTime, .bpHit] s (jumpIndirect w cost s) :=
  ((((read_quiet hl s).trans (read_quiet hh _)).trans (setPc_unchanged _ _)).mono (by decide)).charge cost (by decide)

/-- Settles O37: JMP absolute sets PC, JMP indirect reads it from the pointer, whose high byte's address wraps in the page. -/
theorem jumpResult : Obligations.JumpResult := by
  intro w s
  have habs : UnchangedBut [.pc, .cycleTime] s (charge 3 (s.setPc w)) :=
    ((setPc_unchanged s w).mono (by decide)).charge 3 (by decide)
  refine ⟨⟨_, rfl, rfl, rfl, habs, peek_of_unchanged habs (by decide)⟩, ?_⟩
  rw [← pointerHigh_wraps]
  refine ⟨_, rfl, jumpIndirect_cycleTime w 5 s, jumpIndirect_pc w 5 s, jumpIndirect_unchanged w 5 s, fun hl hh => ?_⟩
  have hquiet := jumpIndirect_quiet hl hh 5 s
  exact ⟨hquiet, peek_of_unchanged hquiet (by decide)⟩

/-! ## JSR and RTS -/

theorem jumpSubroutine_unchanged (w : Word) (n : Nat) (s : State) :
    UnchangedBut [.pc, .sp, .ram, .cycleTime, .bpHit] s (jumpSubroutine w n s) :=
  (((pushWord_unchanged (s.pc - 1) s).trans (setPc_unchanged _ w)).mono (by decide)).charge n (by decide)

theorem peek_jumpSubroutine (w : Word) (n : Nat) (s : State) (a : Word) : peek (jumpSubroutine w n s) a =
    if a = stackAddr (s.sp - 1) then loByte (s.pc - 1) else if a = stackAddr s.sp then hiByte (s.pc - 1) else peek s a := by
  rw [jumpSubroutine, peek_charge, peek_setPc, peek_pushWord]

theorem jumpSubroutine_cycleTime (w : Word) (n : Nat) (s : State) :
    (jumpSubroutine w n s).cycleTime = s.cycleTime + n := by
  have htime : (pushWord (s.pc - 1) s).cycleTime = s.cycleTime := pushWord_unchanged _ s .cycleTime (by decide)
  rw [jumpSubroutine, charge_cycleTime, State.setPc_cycleTime, htime]

theorem returnSubroutine_unchanged (n : Nat) (s : State) :
    UnchangedBut [.pc, .sp, .cycleTime, .bpHit] s (returnSubroutine n s) :=
  (((pullWord_unchanged s).trans (setPc_unchanged _ _)).mono (by decide)).charge n (by decide)

theorem returnSubroutine_pc (n : Nat) (s : State) :
    (returnSubroutine n s).pc = wordOf (stackByte s (s.sp + 1)) (stackByte s (s.sp + 2)) + 1 :=
  congrArg (· + 1) (pullWord_val s)

theorem returnSubroutine_cycleTime (n : Nat) (s : State) : (returnSubroutine n s).cycleTime = s.cycleTime + n := by
  have htime : (pullWord s).2.cycleTime = s.cycleTime := pullWord_unchanged s .cycleTime (by decide)
  rw [returnSubroutine, charge_cycleTime, State.setPc_cycleTime, htime]

/-- The two bytes of a 16-bit push are at different places, also where S wraps. -/
theorem stackAddr_ne_below (sp : Byte) : stackAddr sp ≠ stackAddr (sp - 1) := by
  intro h
  have hsp := congrArg BitVec.toNat (stackAddr_injective h)
  rw [sub_one_toNat] at hsp
  omega

/-- Settles O38: JSR is a 16-bit push of the address before PC, RTS a 16-bit pull. -/
theorem subroutineResult : Obligations.SubroutineResult := by
  intro w s
  have hrts := returnSubroutine_unchanged 6 s
  refine ⟨⟨_, rfl, rfl, pushWord_sp (s.pc - 1) s, ?_, ?_, jumpSubroutine_cycleTime w 6 s, jumpSubroutine_unchanged w 6 s,
    fun a ha => ?_⟩, ⟨_, rfl, returnSubroutine_pc 6 s, pullWord_sp s, returnSubroutine_cycleTime 6 s, hrts,
    peek_of_unchanged hrts (by decide)⟩⟩
  · rw [stackByte, peek_jumpSubroutine, if_neg (stackAddr_ne_below s.sp), if_pos rfl]
  · rw [stackByte, peek_jumpSubroutine, if_pos rfl]
  · simp only [List.mem_cons, List.not_mem_nil, or_false, not_or] at ha
    rw [peek_jumpSubroutine, if_neg ha.2, if_neg ha.1]

/-- The address before `w`, put together of its bytes again, plus 1. -/
theorem wordOf_bytes_sub_one_add_one (w : Word) : wordOf (loByte (w - 1)) (hiByte (w - 1)) + 1 = w := by
  rw [wordOf_bytes, BitVec.sub_add_cancel]

/-- Settles O39: RTS pulls the two bytes from where JSR pushed them, and what it adds is what JSR took off. -/
theorem rtsUndoesJsr : Obligations.RtsUndoesJsr := by
  intro w s t u hjsr husp hhigh hlow
  obtain ⟨⟨t', ht', -, htsp, htop, hbelow, -⟩, -⟩ := subroutineResult w s
  cases ht'.symm.trans hjsr
  obtain ⟨-, v, hv, hpc, hsp, -⟩ := subroutineResult w u
  have hfirst : u.sp + 1 = s.sp - 1 := by rw [husp, htsp]; bv_omega
  have hsecond : u.sp + 2 = s.sp := by rw [husp, htsp]; bv_omega
  refine ⟨v, hv, ?_, hsp.trans hsecond⟩
  rw [hpc, hfirst, hsecond, hlow, hhigh, hbelow, htop, wordOf_bytes_sub_one_add_one]

/-! ## BRK and RTI -/

/-- Settles O40: BRK is the exception entry through a vector in ROM, with B set. -/
theorem brkResult : Obligations.BrkResult := by
  intro s
  have hreturn : s.pc - 1 + brkPushOffset = s.pc + 1 := by rw [brkPushOffset]; bv_omega
  have hentry := takeException_entry vectorIrq (s.pc - 1 + brkPushOffset) true s (by decide) (by decide)
  exact ⟨_, rfl, hreturn ▸ hentry⟩

/-- Settles O41: RTI is the exception return and the charge. -/
theorem rtiResult : Obligations.RtiResult := by
  intro s
  obtain ⟨hp, hpc, hsp, -, hu⟩ := returnFromInterrupt_eq s
  have htime : (returnFromInterrupt s).cycleTime = s.cycleTime := hu .cycleTime (by decide)
  have hframe : UnchangedBut [.p, .pc, .sp, .cycleTime, .bpHit] s (charge 6 (returnFromInterrupt s)) :=
    (hu.mono (by decide)).charge 6 (by decide)
  refine ⟨_, rfl, hp, hpc, hsp, ?_, hframe, peek_of_unchanged hframe (by decide)⟩
  rw [charge_cycleTime, htime]

end Sys2Proof.Machine
end

section
/-! PROOF. The undefined opcodes (spec/49_undefined.md R370, R371): which byte values they are, and the one operation they
run. -/

namespace Sys2Proof

/-! ## The list -/

/-- The opcode byte alone gives the mnemonic: its high digit the row of the table, its low digit the place in the row
(30_encoding.md R110, R114). -/
theorem mnemonic_decodeOpcode (op b c : Byte) : (decodeOpcode op b c).mnemonic = (decodeOpcode op 0 0).mnemonic := by
  unfold decodeOpcode
  generalize op.toNat % 16 = lo
  split
  all_goals
    simp only [decodeRow0, decodeRow1, decodeRow2, decodeRow3, decodeRow4, decodeRow5, decodeRow6, decodeRow7,
      decodeRow8, decodeRow9, decodeRowA, decodeRowB, decodeRowC, decodeRowD, decodeRowE, decodeRowF]
    split <;> rfl

/-- The opcode bytes in rising order. -/
def opcodeBytes : List Byte := (List.range 256).map (BitVec.ofNat 8)

theorem mem_opcodeBytes (op : Byte) : op ∈ opcodeBytes :=
  List.mem_map.2 ⟨op.toNat, List.mem_range.2 op.isLt, by rw [BitVec.ofNat_toNat, BitVec.setWidth_eq]⟩

/-- The list of R371 is what the opcode table leaves undefined. -/
theorem undefinedValues_eq_filter :
    Machine.undefinedValues = opcodeBytes.filter fun op => decide ((decodeOpcode op 0 0).mnemonic = .undefined) := by
  decide

/-- Settles O4: the list is the undefined part of the opcode table, and no operand byte plays a part. -/
theorem undefinedOpcodesAreListed : Obligations.UndefinedOpcodesAreListed := by
  refine ⟨rfl, fun op b c => ?_⟩
  rw [mnemonic_decodeOpcode, undefinedValues_eq_filter, List.mem_filter, decide_eq_true_eq]
  exact ⟨fun h => ⟨mem_opcodeBytes op, h⟩, fun ⟨_, h⟩ => h⟩

end Sys2Proof

namespace Sys2Proof.Machine

/-! ## The operation -/

theorem emit_unchanged (s : State) (e : List OutputEvent) : UnchangedBut [.output] s (s.emit e) := by
  intro f hf
  cases f <;> simp [Same] at hf ⊢

/-- Settles O32: all 105 run one operation, which logs the opcode and is charged. -/
theorem undefinedOpcodeResult : Obligations.UndefinedOpcodeResult := by
  intro i s hm
  have hframe : UnchangedBut [.cycleTime, .output] s (undefinedOpcode s) :=
    ((emit_unchanged s _).mono (by decide)).charge undefinedCycles (by decide)
  exact ⟨_, exec_undefined hm s, rfl, rfl, hframe, peek_of_unchanged hframe (by decide)⟩

end Sys2Proof.Machine
end

section
/-! PROOF. Interrupts (spec/60_exceptions.md R402, R403, R410, R412): which entry an iteration takes, and RTI as its inverse. -/

namespace Sys2Proof.Machine

/-- Step 1: a latched NMI is entered whatever I holds, and its latch cleared (40_execution.md R141, 60_exceptions.md R402). -/
theorem iteration_nmi {s : State} (h : s.nmiPending = true) :
    iteration s = .next ((enterInterrupt vectorNmi s).setNmi false) := by
  simp [iteration, h]

/-- Step 2: with no NMI latched, a pending IRQ is entered when I is clear (R141, R403). -/
theorem iteration_irq {s : State} (hn : s.nmiPending = false) (hi : s.irqPending = true) (hp : getFlag s.p .i = false) :
    iteration s = .next (enterInterrupt vectorIrq s) := by
  simp [iteration, hn, hi, hp]

/-- Settles O42: in a burst the step is the iteration, whose first two steps are the entries. -/
theorem interruptEntry : Obligations.InterruptEntry := by
  intro s hburst
  rw [step_of_inBurst hburst]
  exact ⟨fun hn => ⟨_, iteration_nmi hn, enterInterrupt_nmi s⟩,
    fun hn hi hp => ⟨_, iteration_irq hn hi hp, enterInterrupt_irq s⟩⟩

/-- Settles O43: RTI pulls the three bytes from where the entry pushed them, and what it adds to PC the entry took off. -/
theorem rtiResumesInterrupted : Obligations.RtiResumesInterrupted := by
  intro vec s t u hentry husp hstack
  obtain ⟨v, hv, hp, hpc, hsp, -⟩ := rtiResult u
  have hfirst : u.sp + 1 = s.sp - 2 := by rw [husp, hentry.stackPointer]; bv_omega
  have hsecond : u.sp + 2 = s.sp - 1 := by rw [husp, hentry.stackPointer]; bv_omega
  have hthird : u.sp + 3 = s.sp := by rw [husp, hentry.stackPointer]; bv_omega
  refine ⟨v, hv, ?_, hsp.trans hthird, ?_⟩
  · rw [hpc, hsecond, hthird, hstack _ (by simp), hstack _ (by simp), hentry.returnLow, hentry.returnHigh,
      wordOf_bytes_sub_one_add_one]
  · rw [hp, hfirst, hstack _ (by simp), hentry.status]

end Sys2Proof.Machine
end

section
/-! PROOF. The ULA (spec/60_exceptions.md R421, R422, R428 to R438): what each offset of the peripheral window reads as, and
what a write of each leaves behind. -/

namespace Sys2Proof.Machine

/-! ## Reads -/

theorem peek_peripheral {a : Word} (h : regionOf a = .peripheral) (s : State) : peek s a = ulaValue a s := by
  simp [peek, h]

/-- The status byte by its bits: whether a condition is pending and enabled, the stored bits, and a 1 (R428). -/
theorem statusValue_getLsbD (s : State) {k : Nat} (hk : k < 8) : (statusValue s).getLsbD k =
    if k = 0 then pendingEnabled s != 0 else if k = 7 then true else s.intStatus.getLsbD k := by
  have hbit : k = 0 ∨ k = 1 ∨ k = 2 ∨ k = 3 ∨ k = 4 ∨ k = 5 ∨ k = 6 ∨ k = 7 := by omega
  unfold statusValue
  obtain rfl | rfl | rfl | rfl | rfl | rfl | rfl | rfl := hbit <;> cases pendingEnabled s != 0 <;> simp

/-- Settles O46: a read is of the status, of the OS ROM under the window, or of the register, by its offset. -/
theorem peripheralReads : Obligations.PeripheralReads := by
  intro a s h
  rw [peek_peripheral h]
  refine ⟨fun ho => ?_, fun ho => ?_, fun ho hne => ?_⟩
  · have hvalue : ulaValue a s = statusValue s := by simp only [ulaValue, ho, if_pos]
    rw [hvalue]
    refine ⟨fun k hl hh => ?_, statusValue_getLsbD s (by decide), statusValue_getLsbD s (by decide)⟩
    rw [statusValue_getLsbD s (by omega), if_neg (by omega), if_neg (by omega)]
  · have hne : ulaOffset a ≠ 0 := fun h0 => by simp [h0] at ho
    have hvalue : ulaValue a s = osRomByte s a := by simp only [ulaValue, if_neg hne, if_pos ho]
    rw [hvalue]
    rfl
  · have heven : (ulaOffset a).val % 2 ≠ 1 := by omega
    simp only [ulaValue, if_neg hne, if_neg heven]

/-! ## The mask and the data register -/

theorem writeEnable_unchanged (v : Byte) (s : State) :
    UnchangedBut [.enableMask, .sheila, .irqPending] s (writeEnable v s) := by
  intro f hf
  cases f <;> simp [Same, writeEnable] at hf ⊢

theorem writeData_unchanged (v : Byte) (s : State) :
    UnchangedBut [.sheila, .dataShiftHasData, .intStatus, .irqPending] s (writeData v s) := by
  intro f hf
  cases f <;> simp [Same, writeData] at hf ⊢

/-- A write of the data register clears the transmit condition (R433). -/
theorem writeData_intStatus (v : Byte) (s : State) : (writeData v s).intStatus = s.intStatus &&& 0xDF := by
  have hmask : ~~~BitVec.twoPow 8 5 = (0xDF : Byte) := by decide
  rw [← hmask]
  rfl

theorem writeData_irqPending (v : Byte) (s : State) :
    (writeData v s).irqPending = ((writeData v s).intStatus &&& s.enableMask &&& 0x7C != 0) := rfl

/-- Settles O45: the two writes end in `UpdateIRQ()`, at the mask and at the status they have just written. -/
theorem enableAndDataWrites : Obligations.EnableAndDataWrites := by
  intro a v s h
  rw [machineWrite_peripheral h]
  refine ⟨fun ho => ?_, fun ho => ?_⟩
  · rw [ho]
    exact ⟨rfl, rfl, rfl, writeEnable_unchanged v s⟩
  · rw [ho]
    exact ⟨rfl, rfl, writeData_intStatus v s, writeData_intStatus v s ▸ writeData_irqPending v s, writeData_unchanged v s⟩

/-! ## The page -/

/-- The paging restriction in numbers (R430, 20_memory.md R90). -/
theorem nextPage_toNat (page : BitVec 4) (v : Byte) : (nextPage page v).toNat =
    if 8 ≤ page.toNat ∧ page.toNat ≤ 11 ∧ v.toNat % 16 < 8 then page.toNat else v.toNat % 16 := by
  have hnew : (v.extractLsb' 0 4).toNat = v.toNat % 16 := by simp
  simp only [nextPage, restrictedPage, Bool.and_eq_true, decide_eq_true_eq, and_assoc, hnew]
  split
  · rfl
  · exact hnew

/-- A bit cleared on a condition. -/
theorem clearIf_getLsbD (v : Byte) {j : Nat} (hj : j < 8) (b : Bool) (k : Nat) :
    (if b then putBit v j false else v).getLsbD k = (v.getLsbD k && !(k == j && b)) := by
  cases b with
  | false => simp
  | true => by_cases h : k = j <;> simp [putBit_getLsbD _ _ _ _ hj, h]

/-- Each of the bits 4, 5 and 6 written clears its own condition (R430). -/
theorem acknowledged_getLsbD (status v : Byte) (k : Nat) : (acknowledged status v).getLsbD k =
    (status.getLsbD k && !((k == 2 && v.getLsbD 4) || (k == 3 && v.getLsbD 5) || (k == 6 && v.getLsbD 6))) := by
  rw [acknowledged, clearIf_getLsbD _ (by decide), clearIf_getLsbD _ (by decide), clearIf_getLsbD _ (by decide),
    Bool.not_or, Bool.not_or, Bool.and_assoc, Bool.and_assoc, Bool.and_assoc]

theorem writePage_unchanged (v : Byte) (s : State) :
    UnchangedBut [.page, .sheila, .intStatus, .irqPending] s (writePage v s) := by
  intro f hf
  cases f <;> simp [Same, writePage] at hf ⊢

/-- Settles O47: the page by the restriction, the status by the acknowledge bits whatever the page, then `UpdateIRQ()`. -/
theorem pageWrite : Obligations.PageWrite := by
  intro a v s h ho
  rw [machineWrite_peripheral h, ho]
  exact ⟨nextPage_toNat s.page v, rfl, fun k _ => acknowledged_getLsbD s.intStatus v k, rfl, writePage_unchanged v s⟩

/-! ## The palette calls -/

/-- The calls are made for the logical colours in increasing order, at the registers as they stand (R438). -/
theorem paletteCalls_eq_colourCalls (s : State) : paletteCalls s = colourCalls s := by
  have hrange : List.finRange 16 = (List.range 16).map (Fin.ofNat 16) := by decide
  have hbytes : paletteBytes s = Vector.ofFn fun k : Fin 8 => s.sheila[8 + k.val] := rfl
  rw [colourCalls, hrange, List.map_map, ← hbytes]
  rfl

theorem colourCalls_of_sheila_eq {s t : State} (h : t.sheila = s.sheila) : colourCalls t = colourCalls s := by
  simp only [colourCalls, h]

theorem emitPalette_output (s : State) : (emitPalette s).output = s.output ++ colourCalls s :=
  congrArg (s.output ++ ·) (paletteCalls_eq_colourCalls s)

/-! ## The mode and control register -/

/-- The store of the control byte and the Video calls of a mode change: the write but for its cassette part (R434). -/
def storeControl (v : Byte) (s : State) : State :=
  if videoMode v = videoMode s.sheila[7] then s.setSheila 7 v
  else emitPalette ((s.setSheila 7 v).emit [.videoSetMode (videoMode v)])

/-- The comms mode becomes write mode from another (R434). -/
abbrev EntersWriteMode (v : Byte) (s : State) : Prop := commsMode s.sheila[7] ≠ 2 ∧ commsMode v = 2

theorem storeControl_eq (v : Byte) (s : State) : storeControl v s =
    bif decide (videoMode v ≠ videoMode s.sheila[7]) then
      emitPalette ((s.setSheila 7 v).emit [.videoSetMode (videoMode v)]) else s.setSheila 7 v := by
  unfold storeControl
  split <;> simp [*]

theorem writeControl_of_enters {v : Byte} {s : State} (h : EntersWriteMode v s) :
    writeControl v s = raiseCondition 5 ((storeControl v s).setHasData false) := by
  rw [writeControl_eq, ← storeControl_eq, decide_eq_true h, cond_true]

theorem writeControl_of_not_enters {v : Byte} {s : State} (h : ¬EntersWriteMode v s) :
    writeControl v s = storeControl v s := by
  rw [writeControl_eq, ← storeControl_eq, decide_eq_false h, cond_false]

theorem storeControl_sheila (v : Byte) (s : State) : (storeControl v s).sheila = s.sheila.set 7 v := by
  unfold storeControl
  split <;> rfl

theorem storeControl_output_same {v : Byte} {s : State} (h : videoMode v = videoMode s.sheila[7]) :
    (storeControl v s).output = s.output := by
  rw [storeControl, if_pos h]
  rfl

theorem storeControl_output_changed {v : Byte} {s : State} (h : videoMode v ≠ videoMode s.sheila[7]) :
    (storeControl v s).output = s.output ++ .videoSetMode (videoMode v) :: colourCalls (storeControl v s) := by
  rw [colourCalls_of_sheila_eq (s := s.setSheila 7 v) (storeControl_sheila v s), storeControl, if_neg h,
    emitPalette_output, State.emit_output, State.setSheila_output, List.append_assoc]
  rfl

theorem storeControl_unchanged (v : Byte) (s : State) : UnchangedBut [.sheila, .output] s (storeControl v s) := by
  intro f hf
  unfold storeControl
  split <;> cases f <;> simp [Same] at hf ⊢

theorem raiseCondition_unchanged (k : Nat) (s : State) : UnchangedBut [.intStatus, .irqPending] s (raiseCondition k s) := by
  intro f hf
  cases f <;> simp [Same] at hf ⊢

/-- `Raise` after what leaves the status and the mask: the one bit is set, and the IRQ level is that of the new status (R423). -/
theorem raiseCondition_after {fs : List Field} {s t : State} (h : UnchangedBut fs s t) (hstatus : .intStatus ∉ fs)
    (hmask : .enableMask ∉ fs) (k : Nat) : (raiseCondition k t).intStatus = s.intStatus ||| BitVec.twoPow 8 k ∧
      (raiseCondition k t).irqPending = ((raiseCondition k t).intStatus &&& s.enableMask &&& 0x7C != 0) := by
  have hs : t.intStatus = s.intStatus := h .intStatus hstatus
  have hm : t.enableMask = s.enableMask := h .enableMask hmask
  exact ⟨congrArg (· ||| BitVec.twoPow 8 k) hs, hm ▸ raiseCondition_irqPending k t⟩

theorem setHasData_unchanged (s : State) (b : Bool) : UnchangedBut [.dataShiftHasData] s (s.setHasData b) := by
  intro f hf
  cases f <;> simp [Same] at hf ⊢

/-- The cassette part of the write changes the flag and the condition, and nothing that the Video part wrote. -/
theorem writeControl_storeControl (v : Byte) (s : State) :
    UnchangedBut [.dataShiftHasData, .intStatus, .irqPending] (storeControl v s) (writeControl v s) := by
  by_cases h : EntersWriteMode v s
  · rw [writeControl_of_enters h]
    exact (setHasData_unchanged _ false).trans (raiseCondition_unchanged 5 _)
  · rw [writeControl_of_not_enters h]
    exact .refl _ _

/-- Settles O48: the Video part by the mode bits, the cassette part by the comms mode, neither of which touches the other. -/
theorem controlWrite : Obligations.ControlWrite := by
  intro a v s h ho
  have hwrite : ulaWrite 7 v s = writeControl v s := rfl
  rw [machineWrite_peripheral h, ho, hwrite]
  have hrest := writeControl_storeControl v s
  have hsheila : (writeControl v s).sheila = (storeControl v s).sheila := hrest .sheila (by decide)
  have houtput : (writeControl v s).output = (storeControl v s).output := hrest .output (by decide)
  have hstored := storeControl_unchanged v s
  refine ⟨hsheila.trans (storeControl_sheila v s), fun hmode => ?_, fun hmode => ?_, fun henters => ?_, fun hstays => ?_,
    (hstored.trans hrest).mono (by decide)⟩
  · rw [colourCalls_of_sheila_eq hsheila]
    exact houtput.trans (storeControl_output_changed hmode)
  · exact houtput.trans (storeControl_output_same hmode)
  · obtain ⟨hstatus, hirq⟩ :=
      raiseCondition_after (hstored.trans (setHasData_unchanged _ false)) (by decide) (by decide) 5
    rw [writeControl_of_enters henters]
    exact ⟨rfl, hstatus, hirq⟩
  · rw [writeControl_of_not_enters hstays]
    exact hstored

/-! ## The registers that store -/

theorem setSheila_unchanged (s : State) (k : Fin 16) (v : Byte) : UnchangedBut [.sheila] s (s.setSheila k v) := by
  intro f hf
  cases f <;> simp [Same] at hf ⊢

theorem ulaWrite_store {off : Fin 16} (h : off ∈ [1, 2, 3, 6]) (v : Byte) (s : State) :
    ulaWrite off v s = s.setSheila off v := by
  simp only [List.mem_cons, List.not_mem_nil, or_false] at h
  obtain rfl | rfl | rfl | rfl := h <;> rfl

theorem ulaWrite_palette {off : Fin 16} (h : 8 ≤ off.val) (v : Byte) (s : State) :
    ulaWrite off v s = emitPalette (s.setSheila off v) := by
  unfold ulaWrite
  split
  case h_5 => exact if_pos h
  all_goals omega

/-- Settles O49: the four plain registers store; a palette register stores and then makes the calls. -/
theorem storingRegisterWrites : Obligations.StoringRegisterWrites := by
  intro a v s h
  rw [machineWrite_peripheral h]
  refine ⟨fun ho => ?_, fun ho => ?_⟩
  · rw [ulaWrite_store ho]
    exact ⟨rfl, setSheila_unchanged s _ v⟩
  · rw [ulaWrite_palette ho]
    have hframe := (setSheila_unchanged s (ulaOffset a) v).trans (emit_unchanged _ (paletteCalls (s.setSheila (ulaOffset a) v)))
    exact ⟨rfl, emitPalette_output (s.setSheila (ulaOffset a) v), hframe⟩

end Sys2Proof.Machine
end

section
/-! PROOF. The scanline timer and the cassette (spec/60_exceptions.md R431, R451, R454, R455, R460 to R462): what the end of a
scanline does before the cassette's tick, and what the tick does in each comms mode. -/

namespace Sys2Proof.Machine

/-! ## The cassette's tick by its cases -/

theorem commsMode_eq_iff (v : Byte) (mode : BitVec 2) : commsMode v = mode ↔ v.toNat / 2 % 4 = mode.toNat := by
  have hmode : (commsMode v).toNat = v.toNat / 2 % 4 := by simp [commsMode, Nat.shiftRight_eq_div_pow]
  rw [← hmode]
  exact ⟨congrArg _, BitVec.eq_of_toNat_eq⟩

/-- Before the end of the cadence, or with the motor off, the tick counts and does nothing else (R460). -/
theorem cassetteTick_counts {s : State} (h : s.cassetteCounter + 1 < 130 ∨ s.sheila[7].getLsbD 6 = false) :
    cassetteTick s = s.setCassetteCounter (if s.cassetteCounter + 1 < 130 then s.cassetteCounter + 1 else 0) := by
  rw [cassetteTick_eq]
  split
  · rfl
  · next hc => rw [if_pos (h.resolve_left hc)]

/-- At the end of the cadence the counter restarts, whatever the motor and the comms mode (R460). -/
theorem cassetteTick_restarts {s : State} (hc : 130 ≤ s.cassetteCounter + 1) : (cassetteTick s).cassetteCounter = 0 := by
  rw [cassetteTick_eq, if_neg (by omega)]
  split
  · rfl
  split
  · exact cassetteRead_unchanged (s.setCassetteCounter 0) .cassetteCounter (by decide)
  split
  · exact cassetteWrite_unchanged (s.setCassetteCounter 0) .cassetteCounter (by decide)
  · rfl

section Acting

variable {s : State} (hc : 130 ≤ s.cassetteCounter + 1) (hon : s.sheila[7].getLsbD 6 = true)

include hc hon

theorem cassetteTick_read (hmode : s.sheila[7].toNat / 2 % 4 = 0) :
    cassetteTick s = cassetteRead (s.setCassetteCounter 0) := by
  rw [cassetteTick_eq, if_neg (by omega), if_neg (by simp [hon]), if_pos ((commsMode_eq_iff _ 0).2 hmode)]

theorem cassetteTick_write (hmode : s.sheila[7].toNat / 2 % 4 = 2) :
    cassetteTick s = cassetteWrite (s.setCassetteCounter 0) := by
  have hread : commsMode s.sheila[7] ≠ 0 := fun h => by simp [(commsMode_eq_iff _ 0).1 h] at hmode
  rw [cassetteTick_eq, if_neg (by omega), if_neg (by simp [hon]), if_neg hread, if_pos ((commsMode_eq_iff _ 2).2 hmode)]

theorem cassetteTick_other (hmode : s.sheila[7].toNat / 2 % 4 = 1 ∨ s.sheila[7].toNat / 2 % 4 = 3) :
    cassetteTick s = s.setCassetteCounter 0 := by
  have hread : commsMode s.sheila[7] ≠ 0 := fun h => by simp [(commsMode_eq_iff _ 0).1 h] at hmode
  have hwrite : commsMode s.sheila[7] ≠ 2 := fun h => by simp [(commsMode_eq_iff _ 2).1 h] at hmode
  rw [cassetteTick_eq, if_neg (by omega), if_neg (by simp [hon]), if_neg hread, if_neg hwrite]

end Acting

/-! ## CassetteRead by the Tape's answer, CassetteWrite by the flag -/

theorem cassetteRead_byte {s : State} {b : Byte} {rest : List TapeAnswer} (h : s.tape = .byte b :: rest) :
    cassetteRead s = raiseCondition 4 ((tapeAnswered rest s).setSheila 4 b) := by
  simp [cassetteRead, h]

theorem cassetteRead_highTone {s : State} {rest : List TapeAnswer} (h : s.tape = .highTone :: rest) :
    cassetteRead s = raiseCondition 6 (tapeAnswered rest s) := by
  simp [cassetteRead, h]

theorem cassetteRead_silence {s : State} {rest : List TapeAnswer} (h : s.tape = .silence :: rest) :
    cassetteRead s = tapeAnswered rest s := by
  simp [cassetteRead, h]

theorem cassetteRead_atEnd {s : State} {rest : List TapeAnswer} (h : s.tape = .atEnd :: rest) :
    cassetteRead s = tapeEnded rest s := by
  simp [cassetteRead, h]

/-- A tape whose answers are used up is at its end, and stays used up (log 9). -/
theorem cassetteRead_usedUp {s : State} (h : s.tape = []) : cassetteRead s = s.emit [.tapeIsAtEnd] := by
  have hsame : s.setTape [] = s := h ▸ rfl
  simp [cassetteRead, h, tapeEnded, hsame]

theorem cassetteWrite_data {s : State} (h : s.dataShiftHasData = true) :
    cassetteWrite s = raiseCondition 5 ((s.emit [.tapeStoreByte s.sheila[4]]).setHasData false) := by
  simp [cassetteWrite, h]

theorem cassetteWrite_highTone {s : State} (h : s.dataShiftHasData = false) :
    cassetteWrite s = s.emit [.tapeStoreHighTone] := by
  simp [cassetteWrite, h]

/-- Settles O51: the tick by the cadence and the motor, then by the comms mode, then by the answer or the flag; the frame of
each case is that of its updates, one after the other. -/
theorem cassetteActions : Obligations.CassetteActions := by
  intro s
  have hzero := setCassetteCounter_unchanged s 0
  refine ⟨fun hc => ?_, fun hc => ?_, fun hc hoff => ?_, fun hc hon => ⟨fun hmode b rest htape => ?_,
    fun hmode rest htape => ?_, fun hmode rest htape => ?_, fun hmode rest htape => ?_, fun hmode htape => ?_,
    fun hmode hdata => ?_, fun hmode hdata => ?_, fun hmode => ?_⟩⟩
  · rw [cassetteTick_counts (.inl hc), if_pos hc]
    exact ⟨rfl, setCassetteCounter_unchanged s _⟩
  · exact cassetteTick_restarts hc
  · rw [cassetteTick_counts (.inr hoff), if_neg (by omega)]
    exact hzero
  · rw [cassetteTick_read hc hon hmode, cassetteRead_byte (s := s.setCassetteCounter 0) htape]
    have hbefore := (hzero.trans (tapeAnswered_unchanged rest _)).trans (setSheila_unchanged _ 4 b)
    obtain ⟨hstatus, hirq⟩ := raiseCondition_after hbefore (by decide) (by decide) 4
    exact ⟨rfl, rfl, hstatus, hirq, rfl, (hbefore.trans (raiseCondition_unchanged 4 _)).mono (by decide)⟩
  · rw [cassetteTick_read hc hon hmode, cassetteRead_highTone (s := s.setCassetteCounter 0) htape]
    have hbefore := hzero.trans (tapeAnswered_unchanged rest _)
    obtain ⟨hstatus, hirq⟩ := raiseCondition_after hbefore (by decide) (by decide) 6
    exact ⟨rfl, hstatus, hirq, rfl, (hbefore.trans (raiseCondition_unchanged 6 _)).mono (by decide)⟩
  · rw [cassetteTick_read hc hon hmode, cassetteRead_silence (s := s.setCassetteCounter 0) htape]
    exact ⟨rfl, rfl, (hzero.trans (tapeAnswered_unchanged rest _)).mono (by decide)⟩
  · rw [cassetteTick_read hc hon hmode, cassetteRead_atEnd (s := s.setCassetteCounter 0) htape]
    exact ⟨rfl, rfl, (hzero.trans (tapeEnded_unchanged rest _)).mono (by decide)⟩
  · rw [cassetteTick_read hc hon hmode, cassetteRead_usedUp (s := s.setCassetteCounter 0) htape]
    exact ⟨rfl, hzero.trans (emit_unchanged _ _)⟩
  · rw [cassetteTick_write hc hon hmode, cassetteWrite_data (s := s.setCassetteCounter 0) hdata]
    have hbefore := (hzero.trans (emit_unchanged _ [.tapeStoreByte s.sheila[4]])).trans (setHasData_unchanged _ false)
    obtain ⟨hstatus, hirq⟩ := raiseCondition_after hbefore (by decide) (by decide) 5
    exact ⟨rfl, hstatus, rfl, hirq, (hbefore.trans (raiseCondition_unchanged 5 _)).mono (by decide)⟩
  · rw [cassetteTick_write hc hon hmode, cassetteWrite_highTone (s := s.setCassetteCounter 0) hdata]
    exact ⟨rfl, hzero.trans (emit_unchanged _ _)⟩
  · rw [cassetteTick_other hc hon hmode]
    exact hzero

/-! ## The end of a scanline before the tick -/

/-- The end of a scanline but for the cassette's tick (R451). -/
def scanlineEvents (s : State) : State :=
  raiseAt 256 2 (raiseAt 100 3 (drawLine (latchStart (nextScanline s))))

theorem endOfScanline_eq (s : State) : endOfScanline s = cassetteTick (scanlineEvents s) := rfl

/-- Bits 5..0 of register 3 above bits 7..5 of register 2: the two fields share no bit (R431). -/
theorem startAddress_eq (s : State) : startAddress s =
    BitVec.ofNat 16 ((s.sheila[3].toNat % 64) * 512 + (s.sheila[2].toNat / 32) * 64) := by
  have hhigh : ∀ v : Byte, ((v &&& 0x3F).setWidth 16 <<< 9 : Word).toNat = 2 ^ 9 * (v.toNat % 64) := by decide
  have hlow : ∀ v : Byte, ((v &&& 0xE0).setWidth 16 <<< 1 : Word).toNat = v.toNat / 32 * 64 := by decide
  have h2 := s.sheila[2].isLt
  apply BitVec.eq_of_toNat_eq
  rw [startAddress, BitVec.toNat_or, hhigh, hlow, ← Nat.two_pow_add_eq_or_of_lt (by omega), BitVec.toNat_ofNat]
  omega

theorem latchStart_output (s : State) : (latchStart s).output =
    s.output ++ if s.scanline = 0 then [.videoSetStartAddress (startAddress s)] else [] := by
  unfold latchStart
  split
  · rfl
  · exact (List.append_nil _).symm

theorem drawLine_output (s : State) : (drawLine s).output =
    s.output ++ if s.scanline < 256 then [.videoDrawScanline s.scanline] else [] := by
  unfold drawLine visibleLines
  split
  · rfl
  · exact (List.append_nil _).symm

theorem raiseAt_of_eq {line : Nat} {s : State} (h : s.scanline = line) (k : Nat) :
    raiseAt line k s = raiseCondition k s := if_pos h

theorem raiseAt_of_ne {line : Nat} {s : State} (h : s.scanline ≠ line) (k : Nat) : raiseAt line k s = s := if_neg h

theorem raiseAt_intStatus (line k : Nat) (s : State) : (raiseAt line k s).intStatus =
    s.intStatus ||| if s.scanline = line then BitVec.twoPow 8 k else 0 := by
  by_cases h : s.scanline = line
  · rw [raiseAt_of_eq h, if_pos h]
    rfl
  · rw [raiseAt_of_ne h, if_neg h]
    exact BitVec.or_zero.symm

theorem raiseAt_irqPending (line k : Nat) (s : State) : (raiseAt line k s).irqPending =
    if s.scanline = line then (raiseAt line k s).intStatus &&& s.enableMask &&& 0x7C != 0 else s.irqPending := by
  by_cases h : s.scanline = line
  · rw [raiseAt_of_eq h, if_pos h]
    rfl
  · rw [raiseAt_of_ne h, if_neg h]

/-- Before the two conditions are raised: the time, the counter and the Video calls. -/
theorem drawnLine_unchanged (s : State) :
    UnchangedBut [.cycleTime, .scanline, .output] s (drawLine (latchStart (nextScanline s))) :=
  (((nextScanline_unchanged s).trans (latchStart_unchanged _)).trans (drawLine_unchanged _)).mono (by decide)

theorem scanlineEvents_unchanged (s : State) :
    UnchangedBut [.cycleTime, .scanline, .intStatus, .irqPending, .output] s (scanlineEvents s) :=
  (((drawnLine_unchanged s).trans (raiseAt_unchanged 100 3 _)).trans
    (raiseAt_unchanged 256 2 _)).mono (by decide)

/-- What raises a condition keeps what else the end of a scanline has done. -/
theorem scanlineEvents_drawnLine (s : State) :
    UnchangedBut [.intStatus, .irqPending] (drawLine (latchStart (nextScanline s))) (scanlineEvents s) :=
  ((raiseAt_unchanged 100 3 _).trans (raiseAt_unchanged 256 2 _)).mono (by decide)

theorem scanlineEvents_scanline (s : State) : (scanlineEvents s).scanline = (s.scanline + 1) % 312 := by
  have hline : (scanlineEvents s).scanline = _ := scanlineEvents_drawnLine s .scanline (by decide)
  rw [hline, drawLine_scanline, latchStart_scanline, nextScanline_scanline]

theorem scanlineEvents_cycleTime (s : State) : (scanlineEvents s).cycleTime = s.cycleTime - 128 := by
  have htick : (cassetteTick (scanlineEvents s)).cycleTime = (scanlineEvents s).cycleTime :=
    cassetteTick_unchanged _ .cycleTime (by decide)
  rw [← htick, ← endOfScanline_eq, endOfScanline_cycleTime]

theorem scanlineEvents_output (s : State) : (scanlineEvents s).output = s.output ++
    (if (s.scanline + 1) % 312 = 0 then [.videoSetStartAddress (startAddress s)] else []) ++
    (if (s.scanline + 1) % 312 < 256 then [.videoDrawScanline ((s.scanline + 1) % 312)] else []) := by
  have houtput : (scanlineEvents s).output = _ := scanlineEvents_drawnLine s .output (by decide)
  have hbefore : (nextScanline s).output = s.output := nextScanline_unchanged s .output (by decide)
  have hsheila : (nextScanline s).sheila = s.sheila := nextScanline_unchanged s .sheila (by decide)
  have hstart : startAddress (nextScanline s) = startAddress s := by simp only [startAddress, hsheila]
  rw [houtput, drawLine_output, latchStart_output, latchStart_scanline, nextScanline_scanline, hstart, hbefore]

theorem scanlineEvents_intStatus (s : State) : (scanlineEvents s).intStatus = s.intStatus |||
    (if (s.scanline + 1) % 312 = 100 then 0x08 else 0) ||| (if (s.scanline + 1) % 312 = 256 then 0x04 else 0) := by
  have hdrawn : (drawLine (latchStart (nextScanline s))).intStatus = s.intStatus := drawnLine_unchanged s .intStatus (by decide)
  rw [scanlineEvents, raiseAt_intStatus, raiseAt_intStatus, raiseAt_scanline, drawLine_scanline, latchStart_scanline,
    nextScanline_scanline, hdrawn]
  rfl

/-- The two conditions are raised in different lines, so at most one of them re-evaluates the IRQ level (R454, R455). -/
theorem scanlineEvents_irqPending (s : State) : (scanlineEvents s).irqPending =
    if (s.scanline + 1) % 312 = 100 ∨ (s.scanline + 1) % 312 = 256 then
      (scanlineEvents s).intStatus &&& s.enableMask &&& 0x7C != 0 else s.irqPending := by
  have hdrawn := drawnLine_unchanged s
  have hirq : (drawLine (latchStart (nextScanline s))).irqPending = s.irqPending := hdrawn .irqPending (by decide)
  have hmask : (drawLine (latchStart (nextScanline s))).enableMask = s.enableMask := hdrawn .enableMask (by decide)
  have hline : (drawLine (latchStart (nextScanline s))).scanline = (s.scanline + 1) % 312 := by
    rw [drawLine_scanline, latchStart_scanline, nextScanline_scanline]
  have hmask' : (raiseAt 100 3 (drawLine (latchStart (nextScanline s)))).enableMask = s.enableMask :=
    (raiseAt_unchanged 100 3 _ .enableMask (by decide)).trans hmask
  unfold scanlineEvents
  by_cases hend : (s.scanline + 1) % 312 = 256
  · rw [raiseAt_irqPending, raiseAt_scanline, hline, if_pos hend, if_pos (.inr hend), hmask']
  · rw [raiseAt_of_ne (by rw [raiseAt_scanline, hline]; exact hend), raiseAt_irqPending, hline, hmask, hirq]
    simp only [hend, or_false]

/-! ## The step at the end of a scanline -/

/-- What follows the end of a scanline in a running frame: the frame's end at line 0, or the next line (R450). -/
theorem frameReturn_at_line_zero {e : State} {line : Nat} (hline : e.scanline = line) (hrun : e.driver = .runningFrame) :
    let t := if e.scanline = 0 then frameReturn .frameComplete e else e
    (t.driver = if line = 0 then .idle else .runningFrame) ∧
      t.output = e.output ++ (if line = 0 then [.frameReturned .frameComplete] else []) ∧
      UnchangedBut [.driver, .output] e t := by
  subst hline
  dsimp only
  split
  · exact ⟨rfl, rfl, frameReturn_unchanged .frameComplete e⟩
  · exact ⟨hrun, (List.append_nil _).symm, .refl _ e⟩

/-- Settles O50: the end of a scanline is its events and then the tick, and in a running frame the step makes it. -/
theorem endOfScanlineResult : Obligations.EndOfScanlineResult := by
  intro s htime line start e
  have hevents := scanlineEvents_unchanged s
  have hcounter : (scanlineEvents s).cassetteCounter = s.cassetteCounter := hevents .cassetteCounter (by decide)
  have hsheila : (scanlineEvents s).sheila = s.sheila := hevents .sheila (by decide)
  refine ⟨⟨scanlineEvents s, rfl, scanlineEvents_cycleTime s, scanlineEvents_scanline s, scanlineEvents_intStatus s,
    scanlineEvents_irqPending s, ?_, hevents, fun hquiet => ?_⟩, fun hrun hhit => ?_⟩
  · rw [scanlineEvents_output, startAddress_eq]
  · have htick : e = (scanlineEvents s).setCassetteCounter
        (if s.cassetteCounter + 1 < 130 then s.cassetteCounter + 1 else 0) := by
      rw [← hcounter, ← cassetteTick_counts (by rwa [hcounter, hsheila])]
      rfl
    rw [htick]
    exact ⟨rfl, setCassetteCounter_unchanged _ _⟩
  · have hstep := (step_of_running hrun).trans (frameStep_endOfScanline hhit htime)
    have hdriver : e.driver = .runningFrame := (endOfScanline_unchanged s .driver (by decide)).trans hrun
    have hline : e.scanline = line := endOfScanline_scanline s
    exact ⟨_, hstep, frameReturn_at_line_zero hline hdriver⟩

end Sys2Proof.Machine
end

section
/-! PROOF. The host surface (spec/60_exceptions.md R474, R480 to R486): each operation, taken in Idle as the next host call. -/

namespace Sys2Proof.Machine

/-! ## The next host call -/

theorem step_of_call {s : State} {c : HostCall} {rest : List HostCall} (hd : s.driver = .idle) (hc : s.calls = c :: rest) :
    step s = hostCall c (s.setCalls rest) := by
  simp [step, driverStep, idleStep, hd, hc]

theorem setCalls_unchanged (s : State) (c : List HostCall) : UnchangedBut [.calls] s (s.setCalls c) := by
  intro f hf
  cases f <;> simp [Same] at hf ⊢

/-- A vector with one element written, read at any index. -/
theorem getElem_set_fin {α : Type} {n : Nat} (v : Vector α n) (i j : Fin n) (x : α) :
    (v.set i x)[j] = if j = i then x else v[j] := by
  simp [Vector.getElem_set, Fin.ext_iff, eq_comm]

/-! ## Whole scanlines of bookkeeping -/

theorem endScanlines_succ (n : Nat) (s : State) : endScanlines (n + 1) s = endOfScanline (endScanlines n s) := by
  induction n generalizing s with
  | zero => rfl
  | succ n ih => exact ih (endOfScanline s)

theorem endScanlines_eq_repeat (n : Nat) (s : State) : endScanlines n s = Nat.repeat endOfScanline n s := by
  induction n with
  | zero => rfl
  | succ n ih => rw [endScanlines_succ, ih, Nat.repeat]

theorem endScanlines_cycleTime (n : Nat) (s : State) : (endScanlines n s).cycleTime = s.cycleTime - 128 * n := by
  induction n with
  | zero => rfl
  | succ n ih =>
    rw [endScanlines_succ, endOfScanline_cycleTime, ih]
    omega

/-- The counter moves on by as many lines, once it is in its range (10_state.md R54). -/
theorem endScanlines_scanline (n : Nat) (s : State) :
    (endScanlines (n + 1) s).scanline = (s.scanline + (n + 1)) % 312 := by
  induction n with
  | zero => exact endOfScanline_scanline s
  | succ n ih =>
    rw [endScanlines_succ, endOfScanline_scanline, ih]
    omega

theorem endScanlines_unchanged (n : Nat) (s : State) :
    UnchangedBut [.cycleTime, .scanline, .intStatus, .irqPending, .cassetteCounter, .output, .tape, .sheila,
      .dataShiftHasData] s (endScanlines n s) := by
  induction n with
  | zero => exact .refl _ s
  | succ n ih =>
    rw [endScanlines_succ]
    exact (ih.trans (endOfScanline_unchanged _)).mono (by decide)

/-! ## The host's step -/

theorem setBreakpoint_unchanged (s : State) (k : BreakpointKind) (a : Word) :
    UnchangedBut [.bpKind, .bpAddr] s (s.setBreakpoint k a) := by
  intro f hf
  cases f <;> simp [Same] at hf ⊢

theorem setBreakpoint_kind_unchanged (s : State) (k : BreakpointKind) :
    UnchangedBut [.bpKind] s (s.setBreakpoint k s.bpAddr) := by
  intro f hf
  cases f <;> simp [Same] at hf ⊢

theorem hostStep_of_iteration {s u : State} (h : iteration (s.setBreakpoint .none s.bpAddr) = .next u) :
    hostStep s = .next (endScanlines (u.cycleTime / 128) (u.setBreakpoint s.bpKind u.bpAddr)) := by
  rw [hostStep, h]
  rfl

/-- Settles O54: one iteration, the kind restored, and as many ends of scanlines as there are whole ones in the time. -/
theorem hostStepResult : Obligations.HostStepResult := by
  intro s rest hd hc
  obtain ⟨u, hu⟩ := iteration_goesOn (s.setCalls rest |>.setBreakpoint .none s.bpAddr)
  have hiter := iteration_unchanged hu
  have hends := endScanlines_unchanged (u.cycleTime / 128) (u.setBreakpoint s.bpKind u.bpAddr)
  refine ⟨endScanlines (u.cycleTime / 128) (u.setBreakpoint s.bpKind u.bpAddr), u, hu, ?_, endScanlines_eq_repeat _ _, ?_, ?_,
    fun hless => ?_, ?_, hends .bpKind (by decide), ?_, ?_, ?_⟩
  · exact (step_of_call hd hc).trans (hostStep_of_iteration hu)
  · rw [endScanlines_cycleTime, State.setBreakpoint_cycleTime]
    omega
  · split
    · next hmore =>
      obtain ⟨n, hn⟩ : ∃ n, u.cycleTime / 128 = n + 1 := ⟨u.cycleTime / 128 - 1, by omega⟩
      rw [hn, endScanlines_scanline, State.setBreakpoint_scanline]
    · next hless =>
      rw [Nat.div_eq_of_lt (Nat.lt_of_not_le hless)]
      rfl
  · rw [Nat.div_eq_of_lt hless]
    exact setBreakpoint_kind_unchanged u s.bpKind
  · exact (setBreakpoint_kind_unchanged u s.bpKind).trans hends
  · exact (hends .bpAddr (by decide)).trans (hiter .bpAddr (by decide))
  · exact (hends .calls (by decide)).trans (hiter .calls (by decide))
  · exact ((hends .driver (by decide)).trans (hiter .driver (by decide))).trans hd

/-! ## The small operations -/

/-- A key goes down or up by the same write of its bit (R483). -/
theorem hostCall_key (row : Fin 14) (col : Fin 4) (down : Bool) (s : State) :
    hostCall (if down then .press row col else .release row col) s = .next (putKey row col down s) := by
  cases down <;> rfl

theorem putKey_getLsbD (row : Fin 14) (col : Fin 4) (b : Bool) (s : State) (r : Fin 14) (k : Nat) :
    (putKey row col b s).keyboard[r].getLsbD k = if r = row ∧ k = col.val then b else s.keyboard[r].getLsbD k := by
  have hcol : col.val < 8 := by omega
  rw [putKey, State.setKeyboard_keyboard, getElem_set_fin]
  by_cases hr : r = row
  · simp [hr, putBit_getLsbD _ _ _ _ hcol]
  · simp [hr]

theorem putKey_unchanged (row : Fin 14) (col : Fin 4) (b : Bool) (s : State) :
    UnchangedBut [.keyboard] s (putKey row col b s) := by
  intro f hf
  cases f <;> simp [Same, putKey] at hf ⊢

/-- No read looks at the host calls still to come. -/
theorem readEffect_setCalls (a : Word) (c : List HostCall) (s : State) :
    readEffect a (s.setCalls c) = (readEffect a s).setCalls c := by
  unfold readEffect ulaReadEffect
  split
  · split
    · rfl
    · split <;> rfl
  · rfl

/-- Settles O55: each operation is one update, and the debug read the machine's read, after the call is taken off the list. -/
theorem hostOperations : Obligations.HostOperations := by
  intro s c rest hd hc
  have hstep := step_of_call hd hc
  have hcalls := setCalls_unchanged s rest
  refine ⟨fun kind addr h => ?_, fun row col down h => ?_, fun h => ?_, fun addr h => ?_⟩
  · subst h
    have hframe := (hcalls.trans (setBreakpoint_unchanged _ kind addr)).trans (setBpHit_unchanged _ false)
    exact ⟨_, hstep, rfl, rfl, rfl, rfl, hframe.mono (by decide)⟩
  · rw [h, hostCall_key] at hstep
    refine ⟨_, hstep, ?_, fun r k hne => ?_, rfl, (hcalls.trans (putKey_unchanged row col down _)).mono (by decide)⟩
    · rw [putKey_getLsbD, if_pos ⟨rfl, rfl⟩]
    · rw [putKey_getLsbD, if_neg hne]
      rfl
  · subst h
    exact ⟨_, hstep, rfl, rfl, (hcalls.trans (setNmi_unchanged _ true)).mono (by decide)⟩
  · subst h
    have hread : step s = .next (((readEffect addr s).setCalls rest).emit [.debugReadReturned addr (peek s addr)]) := by
      rw [hstep, ← readEffect_setCalls]
      rfl
    refine ⟨_, hread, ?_, rfl, (setCalls_unchanged _ rest).trans (emit_unchanged _ _)⟩
    rw [State.emit_output, State.setCalls_output, readEffect_output]

/-! ## ROM loads -/

/-- A load of exactly 16384 bytes reads back; of any other length it leaves the ROM absent (R474, log 14). -/
theorem loadedRom_spec (src : List Byte) :
    (src.length = 16384 → (loadedRom src).isSome = true ∧
      ∀ off, off < 16384 → romByte (loadedRom src) off = src.getD off 0) ∧
    (src.length ≠ 16384 → loadedRom src = none) := by
  refine ⟨fun hlen => ?_, fun hlen => if_neg hlen⟩
  have hloaded : loadedRom src = some (Rom.ofBytes src) := if_pos hlen
  rw [hloaded]
  exact ⟨rfl, fun off _ => Rom.get_ofBytes src off⟩

theorem setOsRom_unchanged (s : State) (r : Option RomImage) : UnchangedBut [.osRom] s (s.setOsRom r) := by
  intro f hf
  cases f <;> simp [Same] at hf ⊢

theorem setPagedRoms_unchanged (s : State) (r : Vector (Option RomImage) 16) :
    UnchangedBut [.pagedRoms] s (s.setPagedRoms r) := by
  intro f hf
  cases f <;> simp [Same] at hf ⊢

/-- Settles O56: a load or a clear writes the one ROM, which is bank 10's where bank 11 is named. -/
theorem romLoad : Obligations.RomLoad := by
  intro s c rest hd hc
  have hstep := step_of_call hd hc
  have hcalls := setCalls_unchanged s rest
  have hbank (roms : Vector (Option RomImage) 16) (e : List OutputEvent) :
      UnchangedBut [.pagedRoms, .output, .calls] s (((s.setCalls rest).setPagedRoms roms).emit e) :=
    ((hcalls.trans (setPagedRoms_unchanged _ roms)).trans (emit_unchanged _ e)).mono (by decide)
  have hos (rom : Option RomImage) (e : List OutputEvent) :
      UnchangedBut [.osRom, .output, .calls] s (((s.setCalls rest).setOsRom rom).emit e) :=
    ((hcalls.trans (setOsRom_unchanged _ rom)).trans (emit_unchanged _ e)).mono (by decide)
  refine ⟨fun bank src h => ?_, fun bank h => ?_, fun src h => ?_, fun h => ?_⟩
  · subst h
    intro k
    have hrom : (s.pagedRoms.set (physicalBank bank) (loadedRom src))[k] = loadedRom src :=
      (getElem_set_fin _ _ _ _).trans (if_pos rfl)
    obtain ⟨hright, hwrong⟩ := loadedRom_spec src
    rw [← hrom] at hright hwrong
    exact ⟨_, hstep, rfl, hright, hwrong, fun j hj => (getElem_set_fin _ _ _ _).trans (if_neg hj), rfl, hbank _ _⟩
  · subst h
    intro k
    exact ⟨_, hstep, (getElem_set_fin _ _ _ _).trans (if_pos rfl),
      fun j hj => (getElem_set_fin _ _ _ _).trans (if_neg hj), rfl, rfl, hbank _ _⟩
  · subst h
    obtain ⟨hright, hwrong⟩ := loadedRom_spec src
    exact ⟨_, hstep, rfl, hright, hwrong, rfl, hos _ _⟩
  · subst h
    exact ⟨_, hstep, rfl, rfl, rfl, hos _ _⟩

end Sys2Proof.Machine
end

section
/-! PROOF. Power-on and restart (spec/70_reset_and_hazards.md R500 to R502). -/

namespace Sys2Proof.Machine

/-! ## Power-on -/

/-- Settles O9: memory is empty, no bank is loaded, no key is down, and the one status bit set is the power-on bit. -/
theorem resetHasInvariant : Obligations.ResetHasInvariant where
  memory := reset_memoryWf
  status := rfl
  irqLevel := rfl
  mask := rfl
  scanline := by decide
  cassette := by decide
  time := by decide
  bank := rfl
  keys r := by simp [State.reset]

/-- The reset vector is in the OS ROM (60_exceptions.md R411), so reading it has no side effect. -/
theorem read16_vectorReset (s : State) : read16 vectorReset s = (wordOf (peek s 0xFFFC) (peek s 0xFFFD),
    s.setBpHit ((s.bpHit || (s.bpKind == .onRead && s.bpAddr == 0xFFFC)) ||
      (s.bpKind == .onRead && s.bpAddr == 0xFFFD))) :=
  readPair_of_region (by decide) (by decide) s

/-- With no OS ROM the reset vector reads as the sentinel byte twice (log 2). -/
theorem reset_pc : State.reset.pc = (read16 vectorReset State.reset).1 := by
  have habsent : ∀ a : Word, 0xFF00 ≤ a.toNat → peek State.reset a = Config.unmappedReadByte := fun a ha =>
    peek_osRom (.inr ha) State.reset
  rw [read16_vectorReset, habsent 0xFFFC (by decide), habsent 0xFFFD (by decide)]
  rfl

/-- Settles O10: the fields as the table of R500 lists them, PC as the reset vector reads, RAM as nothing has written it. -/
theorem powerOnValues : Obligations.PowerOnValues := by
  refine ⟨rfl, rfl, rfl, rfl, rfl, reset_pc, rfl, rfl, rfl, rfl, rfl, rfl, rfl, fun a ha => peek_ram ha State.reset,
    rfl, fun b => ?_, rfl, fun k => ?_, rfl, rfl, rfl, rfl, rfl, fun k => ?_, rfl⟩
  all_goals simp [State.reset]

/-! ## Restart -/

/-- A restart, whole: the registers, PC from the reset vector, the two lines, and then the level of the unchanged ULA (R501,
R502). -/
theorem machineRestart_eq (s : State) : machineRestart s =
    (((((((((s.setA 0).setX 0).setY 0).setP 0x24).setSp 0xFF).setCycleTime 0).setPc
      (wordOf (peek s 0xFFFC) (peek s 0xFFFD))).setBpHit false).setNmi false).setIrq
      (s.intStatus &&& s.enableMask &&& 0x7C != 0) := by
  rw [machineRestart, cpuRestart]
  rw [read16_vectorReset]
  rfl

theorem machineRestart_unchanged (s : State) :
    UnchangedBut [.a, .x, .y, .p, .sp, .cycleTime, .pc, .bpHit, .nmiPending, .irqPending] s (machineRestart s) := by
  intro f hf
  rw [machineRestart_eq]
  cases f <;> simp [Same] at hf ⊢

/-- Settles O11: the host's restart is one step in Idle, and changes nothing but what it lists. -/
theorem restartState : Obligations.RestartState := by
  intro s rest hd hc
  have hstep : step s = .next (machineRestart (s.setCalls rest)) := step_of_call hd hc
  have hframe := (setCalls_unchanged s rest).trans (machineRestart_unchanged (s.setCalls rest))
  refine ⟨_, hstep, ?_⟩
  rw [machineRestart_eq] at hframe ⊢
  exact ⟨rfl, rfl, rfl, rfl, rfl, rfl, rfl, rfl, rfl, rfl, rfl, hframe.mono (by decide)⟩

end Sys2Proof.Machine
end
